-- ==== Sys2Proof/Word.lean ====
section
/-! DEFINITION. The word types of the ChaCha core: bytes, 32-bit words, 64-bit values and the 16-word array
(spec/00_scope.md section 4, spec/10_state.md R20). -/

namespace Sys2Proof

/-- A byte, 0 .. 255. -/
abbrev Byte := BitVec 8

/-- `w32` of spec/00_scope.md: an unsigned 32-bit word. -/
abbrev Word := BitVec 32

/-- `w64` of spec/00_scope.md: an unsigned 64-bit value (nonce, block counter). -/
abbrev Word64 := BitVec 64

/-- A 16-word array (`S`, `W`, `OUT`, the result of INIT). The arity is part of the type (spec/10_state.md R20). -/
abbrev Words := Vector Word 16

/-- An index into a 16-word array (spec/30_encoding.md R51). -/
abbrev Index := Fin 16

/-- A secret key: exactly 32 bytes (spec/10_state.md R15, spec/40_state_initializer.md R64). -/
abbrev Key := Vector Byte 32

/-- A keystream block: exactly 64 bytes (spec/42_keystream_producer.md R78). -/
abbrev Block := Vector Byte 64

end Sys2Proof
end

