-- ==== Sys2Proof/Syntax.lean ====
section
/-! DEFINITION. The instructions of the ChaCha core: one constructor per row of spec/opcode_table.json, the variants,
the two kinds of encoded word, and the formats of the table. -/

namespace Sys2Proof

/-- The variant selector, "restricted to {8, 12, 20}" (spec/30_encoding.md R47, R54). -/
inductive Variant where
  /-- ChaCha8: 8 rounds, 4 double rounds. -/
  | r8
  /-- ChaCha12: 12 rounds, 6 double rounds. -/
  | r12
  /-- ChaCha20: 20 rounds, 10 double rounds. -/
  | r20
  deriving DecidableEq, Repr

/-- The instructions. A host command's operands stand on the ports of spec/30_encoding.md R50, not in its word; a
quarter round's indices are the fields of its schedule entry (R51); an internal procedure's operands are those of its
signature in spec/30_encoding.md R58, the word array `X` worked on in place being `State.X`. -/
inductive Instr where
  /-- `BUILD.8` (spec/44_builder.md R92). -/
  | build8
  /-- `BUILD.12` (spec/44_builder.md R92). -/
  | build12
  /-- `BUILD.20` (spec/44_builder.md R92). -/
  | build20
  /-- `ENCRYPT` (spec/43_stream_combiner.md R82). -/
  | encrypt
  /-- `DECRYPT` (spec/43_stream_combiner.md R85). -/
  | decrypt
  /-- `QR a, b, c, d` (spec/41_round_engine.md R66). -/
  | qr (a b c d : Index)
  /-- `SCHED.0`: entry 0 of the schedule, `QR 0, 4, 8, 12` (spec/30_encoding.md R52). -/
  | sched0
  /-- `SCHED.1`: `QR 1, 5, 9, 13`. -/
  | sched1
  /-- `SCHED.2`: `QR 2, 6, 10, 14`. -/
  | sched2
  /-- `SCHED.3`: `QR 3, 7, 11, 15`. -/
  | sched3
  /-- `SCHED.4`: `QR 0, 5, 10, 15`. -/
  | sched4
  /-- `SCHED.5`: `QR 1, 6, 11, 12`. -/
  | sched5
  /-- `SCHED.6`: `QR 2, 7, 8, 13`. -/
  | sched6
  /-- `SCHED.7`: `QR 3, 4, 9, 14`. -/
  | sched7
  /-- `INIT` (spec/40_state_initializer.md R59): build a 16-word state. -/
  | init (key : Key) (nonce blk : Word64)
  /-- `CROUND` (spec/41_round_engine.md R68). -/
  | cround
  /-- `DGROUND` (spec/41_round_engine.md R69). -/
  | dground
  /-- `DROUND` (spec/41_round_engine.md R70). -/
  | dround
  /-- `ROUNDS` with round count `n` (spec/41_round_engine.md R71). -/
  | rounds (n : Nat)
  /-- `KSB` (spec/42_keystream_producer.md R74). -/
  | ksb
  /-- `XORC` on one chunk (spec/43_stream_combiner.md R83). -/
  | xorc (chunk : List Byte)
  /-- `ENCRYPT_FRESH.r` (spec/30_encoding.md R57). -/
  | encryptFresh (r : Variant)
  /-- `DECRYPT_FRESH.r` (spec/30_encoding.md R57). -/
  | decryptFresh (r : Variant)
  deriving DecidableEq, Repr

/-- The four formats of spec/opcode_table.json (spec/30_encoding.md R46, R51, R58). -/
inductive Format where
  /-- An 8-bit host command word. -/
  | cmd8
  /-- A 16-bit schedule entry. -/
  | qri16
  /-- An internal procedure: no bit pattern. -/
  | proc
  /-- A pseudo-operation: no bit pattern. -/
  | pseudo
  deriving DecidableEq, Repr

/-- The format the opcode table gives an instruction. -/
def Instr.format : Instr → Format
  | .build8 | .build12 | .build20 | .encrypt | .decrypt => .cmd8
  | .qr _ _ _ _ => .qri16
  | .sched0 | .sched1 | .sched2 | .sched3 | .sched4 | .sched5 | .sched6 | .sched7 => .qri16
  | .init _ _ _ => .proc
  | .cround | .dground | .dround => .proc
  | .rounds _ => .proc
  | .ksb => .proc
  | .xorc _ => .proc
  | .encryptFresh _ | .decryptFresh _ => .pseudo

/-- An encoded word: a host command (format CMD8) or a schedule entry (format QRI16). Nothing else has bits
(spec/30_encoding.md R55, R58). -/
inductive Code where
  /-- An 8-bit command word (R46). -/
  | cmd8 (c : BitVec 8)
  /-- A 16-bit schedule entry (R51). -/
  | qri16 (q : BitVec 16)
  deriving DecidableEq, Repr

/-- Why the decoder rejects a word. -/
inductive Reject where
  /-- `OP` is none of 1, 2, 3 (spec/30_encoding.md R53). -/
  | reservedOp (c : BitVec 8)
  /-- `Z` is not 00 (R53). -/
  | reservedZ (c : BitVec 8)
  /-- `V` is not 00 in an ENCRYPT or DECRYPT word (R53). -/
  | reservedV (c : BitVec 8)
  /-- BUILD with `V = 11` (R54). -/
  | reservedVariant (c : BitVec 8)
  /-- A schedule entry two of whose indices are equal (R51, spec/41_round_engine.md R67). -/
  | equalIndices (q : BitVec 16)
  deriving DecidableEq, Repr

end Sys2Proof
end

