-- ==== Sys2Proof/Config.lean ====
section
/-! DEFINITION. What an implementation fixes: the open parameters of spec/00_scope.md R5, which the model takes as an
argument, their defaults, and the one free value. -/

namespace Sys2Proof

/-- The open parameters of spec/00_scope.md R5 that a rule depends on. A state carries them (`State.params`) and no step
writes them, so every claim holds for each of their values. `BUS_BINDING` has no field: "no rule depends on it"
(spec/92_eei_decisions.md D21; assumption 11). -/
structure Params where
  /-- `MAX_LEN`, the largest input an ENCRYPT or DECRYPT admits, none being no bound (D16). -/
  MAX_LEN : Option Nat
  /-- `NUMBER_ROUND_DOMAIN`, the round counts a BUILD may select (D15). -/
  NUMBER_ROUND_DOMAIN : List Nat
  deriving DecidableEq, Repr

/-- The defaults the spec gives them (D15, D16): the parameters of the state after reset. -/
def Config.params : Params where
  MAX_LEN := none
  NUMBER_ROUND_DOMAIN := [8, 12, 20]

/-- FREE VALUE: what the read port of `CTR` returns while `VALID = 0`, "an unspecified value" (spec/10_state.md R29),
for the n-th such read. It has no body, so nothing can be proved of it (assumption 20). -/
opaque Config.unspecifiedCTR : Nat → Word64

end Sys2Proof
end

