-- ==== Sys2Proof/WellFormed.lean ====
section
/-! DEFINITION. The checks the spec puts on an instruction's operands: four different indices (spec/41_round_engine.md
R67), a positive even round count (R71), a chunk of 1 to 64 bytes (spec/43_stream_combiner.md R83). Every other operand
is well formed by its type. -/

namespace Sys2Proof

/-- The four indices of a quarter round are pairwise different (spec/41_round_engine.md R67). -/
def distinctIndices (a b c d : Index) : Bool :=
  a != b && a != c && a != d && b != c && b != d && c != d

/-- A round count ROUNDS is defined for: positive and even (spec/41_round_engine.md R71). -/
def roundCountOk (n : Nat) : Bool :=
  0 < n && n % 2 == 0

/-- A round count ROUNDS is defined for, as a type: the value of a session's register `ROUNDS` (spec/00_scope.md R5,
spec/10_state.md R17, spec/41_round_engine.md R71). -/
abbrev RoundCount := { n : Nat // roundCountOk n = true }

/-- A chunk length XORC is defined for: 1 to 64 bytes (spec/43_stream_combiner.md R83). -/
def chunkLengthOk (n : Nat) : Bool :=
  1 ≤ n && n ≤ 64

/-- The operand checks, instruction by instruction. -/
def Instr.wellFormed : Instr → Bool
  | .build8 | .build12 | .build20 | .encrypt | .decrypt => true
  | .qr a b c d => distinctIndices a b c d
  | .sched0 | .sched1 | .sched2 | .sched3 | .sched4 | .sched5 | .sched6 | .sched7 => true
  | .init _ _ _ => true
  | .cround | .dground | .dround => true
  | .rounds n => roundCountOk n
  | .ksb => true
  | .xorc chunk => chunkLengthOk chunk.length
  | .encryptFresh _ | .decryptFresh _ => true

/-- An instruction whose operands pass the spec's checks. -/
abbrev WellFormed (i : Instr) : Prop := i.wellFormed = true

end Sys2Proof
end

