-- ==== Sys2Proof/Machine/State.lean ====
section
/-! DEFINITION. The state of the ChaCha core as plain data: the session's registers (spec/10_state.md R14), the status
field, the open parameters (spec/00_scope.md R5), the ports (spec/30_encoding.md R50), the array a Round Engine
procedure works on (R58), the transient arrays (R24), the host's remaining moves and the sequencer's remaining items;
the refusals; the state after reset (R29, spec/70_reset_and_hazards.md R115). -/

namespace Sys2Proof.Machine

/-- The registers of the core (spec/10_state.md R14 to R19). While `VALID = 0` nothing reads them (R22; assumption 1).
-/
structure Session where
  /-- The secret key (R15). -/
  KEY : Key
  /-- The nonce (R16). -/
  NONCE : Word64
  /-- The round count (R17): one of 8, 12, 20 by default, else one of `NUMBER_ROUND_DOMAIN` (spec/00_scope.md R5). -/
  ROUNDS : RoundCount
  /-- The block counter: the number of the next block (R18). -/
  CTR : Word64
  /-- The state: constants, key, counter, nonce (R19). -/
  S : Words
  deriving DecidableEq, Repr

/-- The result of a BUILD on the `RESULT` port (spec/30_encoding.md R50). -/
inductive BuildResult where
  /-- The core was constructed. -/
  | ok
  /-- The one error (spec/60_exceptions.md R99). -/
  | invalidKeySize
  deriving DecidableEq, Repr

/-- The observation ports (spec/10_state.md R27). -/
inductive Port where
  /-- The flag `VALID`. -/
  | valid
  /-- The status field `ERR`. -/
  | err
  /-- The block counter `CTR`. -/
  | ctr
  deriving DecidableEq, Repr

/-- What the host can do to the core (spec/70_reset_and_hazards.md R126). -/
inductive Request where
  /-- The event RESET (R115). -/
  | reset
  /-- A command word on `CMD`, with what stands on the operand ports while it runs (spec/30_encoding.md R50). -/
  | command (cmd : BitVec 8) (keybuf : List Byte) (nonceIn : Word64) (din : List Byte)
  /-- A read of an observation port (spec/10_state.md R27). -/
  | observe (port : Port)
  deriving DecidableEq, Repr

/-- What the internal sequencer can be given below the command port (spec/30_encoding.md R45, spec/95_test_vectors.md
P4). No request of the host holds one. DESIGN CHOICE (assumption 6). -/
inductive SeqItem where
  /-- A word array given to the procedures that follow: their operand `X` (spec/95_test_vectors.md P4). -/
  | array (x : Words)
  /-- A schedule entry, worked on `X` (spec/30_encoding.md R51). -/
  | entry (q : BitVec 16)
  /-- An instruction given by name, as those that have no word must be: an internal procedure or a pseudo-operation
  (R57, R58). -/
  | call (i : Instr)
  deriving DecidableEq, Repr

/-- Why the machine stops with a fault: never. The core has one error, InvalidKeySize, which is a result and a next
state (spec/60_exceptions.md R101, R105); "All other core operations ... cannot fail at runtime" (R102). So the type has
no constructor: nobody raises a fault, and that is exact (assumption 9). -/
inductive Fault
  deriving DecidableEq, Repr

/-- Why a request has no transition (spec/60_exceptions.md R108). Every refusal is safe: the model says nothing of what
the hardware then does. -/
inductive Refusal where
  /-- Raised by an arm of exec whose instruction has no meaning yet; no arm does. Safe. -/
  | notModelled (mnemonic : String)
  /-- Raised by the fetch: a reserved command word (spec/30_encoding.md R53, R54) or a schedule entry with two equal
  indices (spec/41_round_engine.md R67). Safe. -/
  | undecodable (why : Reject)
  /-- Raised by ENCRYPT, DECRYPT, KSB and XORC (and by a pseudo-operation's second half) while `VALID = 0`: there is no
  core (spec/43_stream_combiner.md R91; for KSB and XORC on their own DEDUCED from the precondition of
  spec/42_keystream_producer.md R74, assumption 19). Safe. -/
  | noCore
  /-- Raised by QR with two equal indices (spec/41_round_engine.md R67). Safe. -/
  | equalIndices
  /-- Raised by ROUNDS with an odd or non-positive count (spec/41_round_engine.md R71, spec/93 U2). Safe. -/
  | roundCount (n : Nat)
  /-- Raised by XORC on a chunk that has not 1 to 64 bytes (spec/43_stream_combiner.md R83; assumption 12). Safe. -/
  | chunkLength (n : Nat)
  /-- Raised by ENCRYPT and DECRYPT on an input longer than `MAX_LEN`, where an implementation sets one
  (spec/60_exceptions.md R108, spec/92_eei_decisions.md D16). Safe. -/
  | inputTooLong (n : Nat)
  /-- Raised by BUILD (alone or first in a pseudo-operation) of a round count that is not in `NUMBER_ROUND_DOMAIN`,
  where an implementation sets one without it; never by default (spec/92_eei_decisions.md D15; assumption 11). Safe. -/
  | roundCountNotOffered (n : Nat)
  deriving DecidableEq, Repr

/-- The whole state. A transient array holds no value outside an operation (spec/10_state.md R24). -/
structure State where
  /-- The open parameters of the implementation, which no step writes (spec/00_scope.md R5; assumption 11). -/
  params : Params
  /-- 1 when a core has been constructed, 0 when none has (R22). -/
  VALID : BitVec 1
  /-- The registers `KEY`, `NONCE`, `ROUNDS`, `CTR` and `S` (R14). -/
  session : Session
  /-- The outcome of the most recent BUILD: 0 none, 1 InvalidKeySize (R23). -/
  ERR : BitVec 2
  /-- The result port of BUILD, none before the first BUILD (spec/30_encoding.md R50). -/
  RESULT : Option BuildResult
  /-- The key operand as presented; its length is `KLEN` (R50). -/
  KEYBUF : List Byte
  /-- The nonce operand (R50). -/
  NONCE_IN : Word64
  /-- The input operand; its length is `LEN` (R50). -/
  DIN : List Byte
  /-- The output sequence (R50). -/
  DOUT : List Byte
  /-- The word array `X` that a Round Engine procedure run on its own works on, in place (spec/30_encoding.md R58,
  spec/41_round_engine.md R66; assumption 5). -/
  X : Words
  /-- The array INIT returned when run on its own (spec/40_state_initializer.md R59; assumption 5). -/
  T : Option Words
  /-- The working copy KSB mixes (spec/10_state.md R24). -/
  W : Option Words
  /-- The snapshot, and then the feed-forward sum (R24). -/
  OUT : Option Words
  /-- The keystream block (R24). -/
  KS : Option Block
  /-- The host's remaining moves, the model's own field (assumption 2). -/
  host : List Request
  /-- The sequencer's remaining items, the model's own field (assumption 6). -/
  seq : List SeqItem
  /-- How many reads of the `CTR` port have found `VALID = 0`, the model's own field: the place of the next free value
  (assumption 20). -/
  reads : Nat
  deriving DecidableEq, Repr

/-- What the registers of the core hold in the state after reset, where the spec gives no value (spec/10_state.md R29):
DESIGN CHOICE (assumption 1), unsafe: zeros, and for `ROUNDS`, which has no zero, the count of the all-zero selector. No
statement rests on them. -/
def Session.unbuilt : Session where
  KEY := Vector.replicate 32 0
  NONCE := 0
  ROUNDS := ⟨8, rfl⟩
  CTR := 0
  S := Vector.replicate 16 0

/-- The state after RESET of an implementation with the given parameters: no core constructed, `VALID = 0`, `ERR = 0`
(spec/10_state.md R29, spec/70_reset_and_hazards.md R115). DESIGN CHOICE (assumptions 1 to 6, 20): the core's registers
hold the values above, the ports are empty, the nonce port 0, the operand array sixteen zero words, the host and the
sequencer have nothing to run, and no port has been read. -/
def State.resetWith (params : Params) : State where
  params := params
  VALID := 0
  session := .unbuilt
  ERR := 0
  RESULT := none
  KEYBUF := []
  NONCE_IN := 0
  DIN := []
  DOUT := []
  X := Vector.replicate 16 0
  T := none
  W := none
  OUT := none
  KS := none
  host := []
  seq := []
  reads := 0

/-- The state after RESET under the spec's default parameters. -/
def State.reset : State := .resetWith Config.params

/-- The outcome of an instruction or a step. -/
abbrev Result := Host.Outcome State Fault Refusal

end Sys2Proof.Machine
end

