-- ==== Sys2Proof/Machine/Ops.lean ====
section
/-! DEFINITION. The primitives of spec/00_scope.md section 5, MemRead and MemWrite (spec/20_memory.md R32), the named
updates of the state, and the core's one error as one shared operation (spec/60_exceptions.md section 1). -/

namespace Sys2Proof.Machine

/-- `add32`: addition modulo 2^32, the carry discarded (spec/00_scope.md R6). -/
def add32 (x y : Word) : Word := x + y

/-- `xor32`: bitwise exclusive or of two words (R7). -/
def xor32 (x y : Word) : Word := x ^^^ y

/-- `xor8`: bitwise exclusive or of two bytes (R7). -/
def xor8 (x y : Byte) : Byte := x ^^^ y

/-- `rotl32`: left rotation by `r` bits, 0 < r < 32 (R8). -/
def rotl32 (x : Word) (r : Nat) : Word := x.rotateLeft r

/-- `add64`: addition modulo 2^64 (R9). -/
def add64 (x y : Word64) : Word64 := x + y

/-- `le32dec`: four bytes to a word, the first byte least significant (R10). -/
def le32dec (b0 b1 b2 b3 : Byte) : Word := b3 ++ b2 ++ b1 ++ b0

/-- `le32enc`: a word to four bytes, least significant first (R11). -/
def le32enc (w : Word) : Vector Byte 4 :=
  #v[w.extractLsb' 0 8, w.extractLsb' 8 8, w.extractLsb' 16 8, w.extractLsb' 24 8]

/-- `lo32`: bits 31..0 of a 64-bit value (R12). -/
def lo32 (v : Word64) : Word := v.extractLsb' 0 32

/-- `hi32`: bits 63..32 of a 64-bit value (R12). -/
def hi32 (v : Word64) : Word := v.extractLsb' 32 32

/-- `MemRead(space, i, 1)` (spec/20_memory.md R32). An index outside the space cannot be written (R31). -/
def memRead1 {n : Nat} (sp : Vector Byte n) (i : Nat) (h : i < n := by omega) : Byte := sp[i]

/-- `MemRead(space, i, 4)`, little-endian (R32, R33). -/
def memRead4 {n : Nat} (sp : Vector Byte n) (i : Nat) (h : i + 4 ≤ n := by omega) : Word :=
  le32dec sp[i] sp[i + 1] sp[i + 2] sp[i + 3]

/-- `MemWrite(space, i, 1, v)` (R32). -/
def memWrite1 {n : Nat} (sp : Vector Byte n) (i : Nat) (v : Byte) (h : i < n := by omega) : Vector Byte n := sp.set i v

/-- `MemWrite(space, i, 4, v)`, little-endian (R32, R33). -/
def memWrite4 {n : Nat} (sp : Vector Byte n) (i : Nat) (v : Word) (h : i + 4 ≤ n := by omega) : Vector Byte n :=
  (((sp.set i (le32enc v)[0]).set (i + 1) (le32enc v)[1]).set (i + 2) (le32enc v)[2]).set (i + 3) (le32enc v)[3]

/-- What the host presents on the operand ports while a command runs (spec/30_encoding.md R50). -/
def State.latch (s : State) (keybuf : List Byte) (nonceIn : Word64) (din : List Byte) : State :=
  { s with KEYBUF := keybuf, NONCE_IN := nonceIn, DIN := din }

/-- `raise InvalidKeySize`, the one error: the result and `ERR = 1` are recorded and nothing else is written; there is
no entry, no saved state and no return (spec/44_builder.md R96, spec/60_exceptions.md R101, R105, R106). -/
def State.raiseInvalidKeySize (s : State) : State :=
  { s with ERR := 1, RESULT := some .invalidKeySize }

/-- A core comes into being: every register of the session is written, `VALID` becomes 1 and `ERR` 0
(spec/44_builder.md R95, R98). -/
def State.install (s : State) (c : Session) : State :=
  { s with VALID := 1, session := c, ERR := 0, RESULT := some .ok }

/-- The operand array `X` of the Round Engine is written (spec/30_encoding.md R58). -/
def State.putX (s : State) (x : Words) : State := { s with X := x }

/-- The output sequence is written (spec/20_memory.md R31). -/
def State.putDOUT (s : State) (out : List Byte) : State := { s with DOUT := out }

/-- The end of an ENCRYPT or DECRYPT: the session and the output it leaves, and no transient array, since none survives
the operation (spec/10_state.md R24). -/
def State.finish (s : State) (r : Session × List Byte) : State :=
  { s with session := r.1, DOUT := r.2, T := none, W := none, OUT := none, KS := none }

/-- A procedure of the Round Engine on its operand array, in place (spec/41_round_engine.md R66). -/
def onArray (f : Words → Words) (s : State) : Result := .next (s.putX (f s.X))

/-- An operation that needs a constructed core: admitted only while `VALID = 1` (spec/43_stream_combiner.md R91). -/
def withCore (f : Session → Result) (s : State) : Result :=
  if s.VALID = 1 then f s.session else .refused .noCore

/-- One operation and then another, the second on the state the first leaves (spec/30_encoding.md R57). -/
def andThen (r : Result) (f : State → Result) : Result :=
  match r with
  | .next s => f s
  | .fault e => .fault e
  | .refused e => .refused e

end Sys2Proof.Machine
end

