-- ==== Sys2Proof/Machine/Operands.lean ====
section
/-! DEFINITION. Operand assembly (spec/30_encoding.md R50): the key operand, the chunks of the input, the round count a
variant stands for, and what the open parameters admit (spec/00_scope.md R5). -/

namespace Sys2Proof.Machine

/-- The key operand: the bytes of `KEYBUF` in the order presented, when there are exactly 32
(spec/30_encoding.md R50, spec/44_builder.md R93). -/
def keyOperand (keybuf : List Byte) : Option Key :=
  if h : keybuf.length = 32 then some ⟨keybuf.toArray, by simpa using h⟩ else none

/-- `number_round` of a variant (spec/30_encoding.md R47). -/
def numberRound : Variant → Nat
  | .r8 => 8
  | .r12 => 12
  | .r20 => 20

/-- The round count a variant stands for, as a register holds it (spec/10_state.md R17). -/
def variantCount (r : Variant) : RoundCount := ⟨numberRound r, by cases r <;> rfl⟩

/-- Whether a BUILD may select a round count (spec/92_eei_decisions.md D15). -/
def roundOffered (domain : List Nat) (n : Nat) : Bool := domain.contains n

/-- The number of chunks of an input of `n` bytes: the least integer not below n / 64, 0 when n = 0
(spec/43_stream_combiner.md R82, R86). -/
def chunkCount (n : Nat) : Nat := (n + 63) / 64

/-- The first chunk of an input: its first 64 bytes, or all of it when it is shorter (R82). -/
def firstChunk (din : List Byte) : List Byte := din.take 64

/-- What follows the first chunk (R82). -/
def afterChunk (din : List Byte) : List Byte := din.drop 64

/-- An input length under a bound `MAX_LEN`, none being no bound (spec/92_eei_decisions.md D16). -/
def lengthAdmitted (maxLen : Option Nat) (n : Nat) : Bool :=
  match maxLen with
  | none => true
  | some m => n ≤ m

end Sys2Proof.Machine
end

