-- ==== Sys2Proof/Machine/Initializer.lean ====
section
/-! DEFINITION. The State Initializer (spec/40_state_initializer.md): INIT. -/

namespace Sys2Proof.Machine

/-- `INIT(key, nonce, blk)`: the constants, the key as eight little-endian words, the block number and the nonce, each
low half first (spec/40_state_initializer.md R59 to R62). -/
def initState (key : Key) (nonce blk : Word64) : Words :=
  #v[0x61707865, 0x3320646e, 0x79622d32, 0x6b206574,
     memRead4 key 0, memRead4 key 4, memRead4 key 8, memRead4 key 12,
     memRead4 key 16, memRead4 key 20, memRead4 key 24, memRead4 key 28,
     lo32 blk, hi32 blk, lo32 nonce, hi32 nonce]

/-- INIT run on its own: a pure function of its operands, no register is read or written (R63). Its caller assigns the
result; with no caller it stands in `T` (assumption 5). -/
def execInit (key : Key) (nonce blk : Word64) (s : State) : Result :=
  .next { s with T := some (initState key nonce blk) }

end Sys2Proof.Machine
end

