-- ==== Sys2Proof/Machine/Builder.lean ====
section
/-! DEFINITION. The Builder/Validator (spec/44_builder.md): BUILD. -/

namespace Sys2Proof.Machine

/-- A freshly constructed core: counter 0 and the first state (spec/44_builder.md R95). -/
def freshSession (n : RoundCount) (key : Key) (nonce : Word64) : Session where
  KEY := key
  NONCE := nonce
  ROUNDS := n
  CTR := 0
  S := initState key nonce 0

/-- BUILD of a round count: one `NUMBER_ROUND_DOMAIN` offers (spec/92_eei_decisions.md D15; assumption 11), then the
key-length check, then either the one error or a new core (R92, R93). The command words select three counts (R92); the
operation is the same for every other the domain exposes. -/
def build (n : RoundCount) (s : State) : Result :=
  if roundOffered s.params.NUMBER_ROUND_DOMAIN n.val then
    match keyOperand s.KEYBUF with
    | none => .next s.raiseInvalidKeySize
    | some key => .next (s.install (freshSession n key s.NONCE_IN))
  else .refused (.roundCountNotOffered n.val)

/-- `BUILD.8` (R92). -/
def execBuild8 (s : State) : Result := build (variantCount .r8) s

/-- `BUILD.12` (R92). -/
def execBuild12 (s : State) : Result := build (variantCount .r12) s

/-- `BUILD.20` (R92). -/
def execBuild20 (s : State) : Result := build (variantCount .r20) s

end Sys2Proof.Machine
end

