-- ==== Sys2Proof/Machine/RoundEngine.lean ====
section
/-! DEFINITION. The Round Engine (spec/41_round_engine.md): QR, the eight schedule entries, CROUND, DGROUND, DROUND,
ROUNDS. -/

namespace Sys2Proof.Machine

/-- One quarter round on four different words of a word array, written as the pure function of the four input values
that spec/41_round_engine.md R66 gives beside its in-place listing. -/
def quarterRound {n : Nat} (x : Vector Word n) (a b c d : Fin n) : Vector Word n :=
  let a1 := add32 x[a] x[b]
  let d1 := rotl32 (xor32 x[d] a1) 16
  let c1 := add32 x[c] d1
  let b1 := rotl32 (xor32 x[b] c1) 12
  let a2 := add32 a1 b1
  let d2 := rotl32 (xor32 d1 a2) 8
  let c2 := add32 c1 d2
  let b2 := rotl32 (xor32 b1 c2) 7
  (((x.set a a2).set b b2).set c c2).set d d2

/-- `CROUND`: the column half, entries 0 to 3 in order (R68). -/
def columnHalf (x : Words) : Words :=
  let x := quarterRound x 0 4 8 12
  let x := quarterRound x 1 5 9 13
  let x := quarterRound x 2 6 10 14
  quarterRound x 3 7 11 15

/-- `DGROUND`: the diagonal half, entries 4 to 7 in order (R69). -/
def diagonalHalf (x : Words) : Words :=
  let x := quarterRound x 0 5 10 15
  let x := quarterRound x 1 6 11 12
  let x := quarterRound x 2 7 8 13
  quarterRound x 3 4 9 14

/-- `DROUND`: columns first, then diagonals (R70). -/
def doubleRound (x : Words) : Words := diagonalHalf (columnHalf x)

/-- `k` double rounds, one after another. -/
def doubleRounds : Nat → Words → Words
  | 0, x => x
  | k + 1, x => doubleRounds k (doubleRound x)

/-- `ROUNDS(X, n)`: n / 2 double rounds (R71). -/
def runRounds (n : Nat) (x : Words) : Words := doubleRounds (n / 2) x

/-- `QR` on the operand array; two equal indices are refused (R66, R67). -/
def execQr (a b c d : Index) (s : State) : Result :=
  if distinctIndices a b c d then onArray (fun x => quarterRound x a b c d) s else .refused .equalIndices

/-- `SCHED.0` (spec/30_encoding.md R52). -/
def execSched0 (s : State) : Result := onArray (fun x => quarterRound x 0 4 8 12) s

/-- `SCHED.1` (R52). -/
def execSched1 (s : State) : Result := onArray (fun x => quarterRound x 1 5 9 13) s

/-- `SCHED.2` (R52). -/
def execSched2 (s : State) : Result := onArray (fun x => quarterRound x 2 6 10 14) s

/-- `SCHED.3` (R52). -/
def execSched3 (s : State) : Result := onArray (fun x => quarterRound x 3 7 11 15) s

/-- `SCHED.4` (R52). -/
def execSched4 (s : State) : Result := onArray (fun x => quarterRound x 0 5 10 15) s

/-- `SCHED.5` (R52). -/
def execSched5 (s : State) : Result := onArray (fun x => quarterRound x 1 6 11 12) s

/-- `SCHED.6` (R52). -/
def execSched6 (s : State) : Result := onArray (fun x => quarterRound x 2 7 8 13) s

/-- `SCHED.7` (R52). -/
def execSched7 (s : State) : Result := onArray (fun x => quarterRound x 3 4 9 14) s

/-- `CROUND` on the operand array (spec/41_round_engine.md R68). -/
def execCround (s : State) : Result := onArray columnHalf s

/-- `DGROUND` on the operand array (R69). -/
def execDground (s : State) : Result := onArray diagonalHalf s

/-- `DROUND` on the operand array (R70). -/
def execDround (s : State) : Result := onArray doubleRound s

/-- `ROUNDS` on the operand array; an odd or non-positive count is refused (R71, spec/70_reset_and_hazards.md R125). -/
def execRounds (n : Nat) (s : State) : Result :=
  if roundCountOk n then onArray (runRounds n) s else .refused (.roundCount n)

end Sys2Proof.Machine
end

