-- ==== Sys2Proof/Machine/Keystream.lean ====
section
/-! DEFINITION. The Keystream Producer (spec/42_keystream_producer.md): KSB. -/

namespace Sys2Proof.Machine

/-- Feed-forward: word by word, the snapshot plus the mixed working copy
(spec/42_keystream_producer.md R75, spec/90_conflicts.md C1). -/
def feedForward (snapshot mixed : Words) : Words := Vector.zipWith add32 snapshot mixed

/-- Serialisation: word 0 first, each word least significant byte first (R78). -/
def serialize (out : Words) : Block := Vector.ofFn fun i : Fin 64 => (le32enc out[i.val / 4])[i.val % 4]

/-- The working copy after all rounds: step 2 of R74, on the state as it stands when the call begins. -/
def mixedCopy (c : Session) : Words := runRounds c.ROUNDS.val c.S

/-- The sum: steps 1, 2 and 5 of R74. -/
def blockWords (c : Session) : Words := feedForward c.S (mixedCopy c)

/-- The 64 bytes of the block: step 6 of R74. -/
def keystreamBlock (c : Session) : Block := serialize (blockWords c)

/-- The session after a block: steps 3 and 4 of R74, the counter plus 1 and the state recomputed from scratch
(R76, R77). -/
def advance (c : Session) : Session :=
  { c with CTR := add64 c.CTR 1, S := initState c.KEY c.NONCE (add64 c.CTR 1) }

/-- What one KSB writes: `CTR`, `S` and the transients `OUT`, `W`, `KS` (R74). -/
def State.putBlock (s : State) (c : Session) : State :=
  { s with
    session := advance c, W := some (mixedCopy c), OUT := some (blockWords c), KS := some (keystreamBlock c) }

/-- `KSB`; its precondition is `VALID = 1` (R74). -/
def execKsb (s : State) : Result := withCore (fun c => .next (s.putBlock c)) s

end Sys2Proof.Machine
end

