-- ==== Sys2Proof/Machine/Combiner.lean ====
section
/-! DEFINITION. The Stream Combiner (spec/43_stream_combiner.md): XORC, ENCRYPT, DECRYPT. -/

namespace Sys2Proof.Machine

/-- A chunk against a block, position by position; the block's bytes beyond the chunk are dropped
(spec/43_stream_combiner.md R83, R87). -/
def combineChunk (chunk : List Byte) (ks : Block) : List Byte := List.zipWith xor8 chunk ks.toList

/-- `q` chunks of an input, one fresh block each, the outputs in order (R82). -/
def combine : Nat → Session → List Byte → Session × List Byte
  | 0, c, _ => (c, [])
  | q + 1, c, din =>
    let rest := combine q (advance c) (afterChunk din)
    (rest.1, combineChunk (firstChunk din) (keystreamBlock c) ++ rest.2)

/-- `XORC`: one KSB, and the chunk combined with its block; the output stands in `DOUT` (R83, spec/20_memory.md R31).
A chunk that has not 1 to 64 bytes is no operand of it (assumption 12). -/
def execXorc (chunk : List Byte) (s : State) : Result :=
  if chunkLengthOk chunk.length then
    withCore (fun c => .next ((s.putBlock c).putDOUT (combineChunk chunk (keystreamBlock c)))) s
  else .refused (.chunkLength chunk.length)

/-- ENCRYPT and DECRYPT: the admission (R91), the bound `MAX_LEN` where one is set (spec/92_eei_decisions.md D16), the
chunks (R82), and the end of the operation (spec/10_state.md R24). -/
def streamCombine (s : State) : Result :=
  withCore
    (fun c =>
      if lengthAdmitted s.params.MAX_LEN s.DIN.length then
        .next (s.finish (combine (chunkCount s.DIN.length) c s.DIN))
      else .refused (.inputTooLong s.DIN.length))
    s

/-- `ENCRYPT` (R82). -/
def execEncrypt (s : State) : Result := streamCombine s

/-- `DECRYPT`: the identical operation (R85). -/
def execDecrypt (s : State) : Result := streamCombine s

end Sys2Proof.Machine
end

