-- ==== Sys2Proof/Decode.lean ====
section
/-! DEFINITION. The decoder and the encoder of host command words (spec/30_encoding.md R46 to R49, R53, R54) and of
schedule entries (R51, R52). Both are total; the decoder rejects by name. -/

namespace Sys2Proof

/-- Field `OP` of a command word: bits 7..4 (spec/30_encoding.md R46). -/
def opField (c : BitVec 8) : BitVec 4 := c.extractLsb' 4 4

/-- Field `Z` of a command word: bits 3..2 (R46). -/
def zField (c : BitVec 8) : BitVec 2 := c.extractLsb' 2 2

/-- Field `V` of a command word: bits 1..0 (R46). -/
def vField (c : BitVec 8) : BitVec 2 := c.extractLsb' 0 2

/-- BUILD by its variant selector (R47); `V = 11` is reserved (R54). -/
def decodeBuild (c : BitVec 8) : Except Reject Instr :=
  match (vField c).toNat with
  | 0 => .ok .build8
  | 1 => .ok .build12
  | 2 => .ok .build20
  | _ => .error (.reservedVariant c)

/-- The host command a command word stands for; every word but five is reserved (R53). -/
def decodeCommand (c : BitVec 8) : Except Reject Instr :=
  match (opField c).toNat with
  | 1 => if zField c = 0 then decodeBuild c else .error (.reservedZ c)
  | 2 => if zField c ≠ 0 then .error (.reservedZ c) else if vField c = 0 then .ok .encrypt else .error (.reservedV c)
  | 3 => if zField c ≠ 0 then .error (.reservedZ c) else if vField c = 0 then .ok .decrypt else .error (.reservedV c)
  | _ => .error (.reservedOp c)

/-- The index in bits `lo + 3 .. lo` of a schedule entry (R51). -/
def indexField (q : BitVec 16) (lo : Nat) : Index := Fin.ofNat 16 (q.extractLsb' lo 4).toNat

/-- The instruction a tuple of indices stands for: a scheduled tuple is one of `SCHED.0` to `SCHED.7` (R52), any other
is a QR. DESIGN CHOICE (assumption 7): a scheduled word is a QR word too, and the model answers its scheduled name. -/
def nameEntry (a b c d : Index) : Instr :=
  if (a, b, c, d) = (0, 4, 8, 12) then .sched0
  else if (a, b, c, d) = (1, 5, 9, 13) then .sched1
  else if (a, b, c, d) = (2, 6, 10, 14) then .sched2
  else if (a, b, c, d) = (3, 7, 11, 15) then .sched3
  else if (a, b, c, d) = (0, 5, 10, 15) then .sched4
  else if (a, b, c, d) = (1, 6, 11, 12) then .sched5
  else if (a, b, c, d) = (2, 7, 8, 13) then .sched6
  else if (a, b, c, d) = (3, 4, 9, 14) then .sched7
  else .qr a b c d

/-- The instruction a schedule entry stands for, most significant nibble first (R51); two equal indices are rejected
(spec/41_round_engine.md R67, spec/95_test_vectors.md section 2.11). -/
def decodeEntry (q : BitVec 16) : Except Reject Instr :=
  if distinctIndices (indexField q 12) (indexField q 8) (indexField q 4) (indexField q 0) then
    .ok (nameEntry (indexField q 12) (indexField q 8) (indexField q 4) (indexField q 0))
  else .error (.equalIndices q)

/-- The instruction an encoded word stands for. -/
def decode : Code → Except Reject Instr
  | .cmd8 c => decodeCommand c
  | .qri16 q => decodeEntry q

/-- An instruction under the name the decoder gives it: a QR on a scheduled tuple under its scheduled name. -/
def Instr.canon : Instr → Instr
  | .qr a b c d => nameEntry a b c d
  | i => i

/-- The command word with the given fields (R46). -/
def commandWord (op : BitVec 4) (v : BitVec 2) : BitVec 8 := op ++ (0 : BitVec 2) ++ v

/-- The schedule entry of a tuple of indices (R51). -/
def entryWord (a b c d : Index) : BitVec 16 :=
  BitVec.ofNat 4 a.val ++ BitVec.ofNat 4 b.val ++ BitVec.ofNat 4 c.val ++ BitVec.ofNat 4 d.val

/-- The word of an instruction: a command word, a schedule entry, or none for a procedure or a pseudo-operation
(spec/30_encoding.md R58). -/
def encode : Instr → Option Code
  | .build8 => some (.cmd8 (commandWord 1 0))
  | .build12 => some (.cmd8 (commandWord 1 1))
  | .build20 => some (.cmd8 (commandWord 1 2))
  | .encrypt => some (.cmd8 (commandWord 2 0))
  | .decrypt => some (.cmd8 (commandWord 3 0))
  | .qr a b c d => some (.qri16 (entryWord a b c d))
  | .sched0 => some (.qri16 (entryWord 0 4 8 12))
  | .sched1 => some (.qri16 (entryWord 1 5 9 13))
  | .sched2 => some (.qri16 (entryWord 2 6 10 14))
  | .sched3 => some (.qri16 (entryWord 3 7 11 15))
  | .sched4 => some (.qri16 (entryWord 0 5 10 15))
  | .sched5 => some (.qri16 (entryWord 1 6 11 12))
  | .sched6 => some (.qri16 (entryWord 2 7 8 13))
  | .sched7 => some (.qri16 (entryWord 3 4 9 14))
  | .init _ _ _ => none
  | .cround | .dground | .dround => none
  | .rounds _ => none
  | .ksb => none
  | .xorc _ => none
  | .encryptFresh _ | .decryptFresh _ => none

/-- The number of bits of an encoded word (R55). -/
def Code.bits : Code → Nat
  | .cmd8 _ => 8
  | .qri16 _ => 16

/-- The number of bits the opcode table gives a format, none where it gives no pattern. -/
def Format.bits : Format → Option Nat
  | .cmd8 => some 8
  | .qri16 => some 16
  | .proc | .pseudo => none

/-- The word of `nbits` bits numbered as spec/opcode_table.json numbers them: 8 bits are a command word, 16 a schedule
entry (both formats are one word with bit 0 least significant); no other length is an instruction (R55). -/
def tableCode (nbits w : Nat) : Option Code :=
  if nbits = 8 then some (.cmd8 (BitVec.ofNat 8 w))
  else if nbits = 16 then some (.qri16 (BitVec.ofNat 16 w))
  else none

/-- What the decoder reads from an instruction whose bits are `w`. -/
def decodeTableWord (nbits w : Nat) : Option Instr :=
  (tableCode nbits w).bind fun c => (decode c).toOption

end Sys2Proof
end

