-- ==== Sys2Proof/Machine/Pseudo.lean ====
section
/-! DEFINITION. The pseudo-operations of spec/30_encoding.md R57. -/

namespace Sys2Proof.Machine

/-- BUILD by its variant. -/
def execBuild : Variant → State → Result
  | .r8, s => execBuild8 s
  | .r12, s => execBuild12 s
  | .r20, s => execBuild20 s

/-- `ENCRYPT_FRESH.r`: BUILD.r, then ENCRYPT on the state it leaves (spec/30_encoding.md R57; assumption 10). -/
def execEncryptFresh (r : Variant) (s : State) : Result := andThen (execBuild r s) execEncrypt

/-- `DECRYPT_FRESH.r`: BUILD.r, then DECRYPT on the state it leaves (R57; assumption 10). -/
def execDecryptFresh (r : Variant) (s : State) : Result := andThen (execBuild r s) execDecrypt

/-- The command word of BUILD.r (R47). -/
def buildWord : Variant → BitVec 8
  | .r8 => commandWord 1 0
  | .r12 => commandWord 1 1
  | .r20 => commandWord 1 2

/-- The host's program `ENCRYPT_FRESH.r key, nonce, m` expands to (R57). -/
def encryptFreshProgram (r : Variant) (key : List Byte) (nonce : Word64) (m : List Byte) : List Request :=
  [.command (buildWord r) key nonce m, .command (commandWord 2 0) key nonce m]

/-- The host's program `DECRYPT_FRESH.r key, nonce, m` expands to (R57). -/
def decryptFreshProgram (r : Variant) (key : List Byte) (nonce : Word64) (m : List Byte) : List Request :=
  [.command (buildWord r) key nonce m, .command (commandWord 3 0) key nonce m]

end Sys2Proof.Machine
end

