-- ==== Sys2Proof/Machine/Dispatch.lean ====
section
/-! DEFINITION. The meaning of every instruction: one arm per constructor of Instr. -/

namespace Sys2Proof.Machine

def exec (i : Instr) (s : State) : Host.Outcome State Fault Refusal :=
  match i with
  | .build8 => Sys2Proof.Machine.execBuild8 s
  | .build12 => Sys2Proof.Machine.execBuild12 s
  | .build20 => Sys2Proof.Machine.execBuild20 s
  | .encrypt => Sys2Proof.Machine.execEncrypt s
  | .decrypt => Sys2Proof.Machine.execDecrypt s
  | .qr a b c d => Sys2Proof.Machine.execQr a b c d s
  | .sched0 => Sys2Proof.Machine.execSched0 s
  | .sched1 => Sys2Proof.Machine.execSched1 s
  | .sched2 => Sys2Proof.Machine.execSched2 s
  | .sched3 => Sys2Proof.Machine.execSched3 s
  | .sched4 => Sys2Proof.Machine.execSched4 s
  | .sched5 => Sys2Proof.Machine.execSched5 s
  | .sched6 => Sys2Proof.Machine.execSched6 s
  | .sched7 => Sys2Proof.Machine.execSched7 s
  | .init key nonce blk => Sys2Proof.Machine.execInit key nonce blk s
  | .cround => Sys2Proof.Machine.execCround s
  | .dground => Sys2Proof.Machine.execDground s
  | .dround => Sys2Proof.Machine.execDround s
  | .rounds n => Sys2Proof.Machine.execRounds n s
  | .ksb => Sys2Proof.Machine.execKsb s
  | .xorc chunk => Sys2Proof.Machine.execXorc chunk s
  | .encryptFresh r => Sys2Proof.Machine.execEncryptFresh r s
  | .decryptFresh r => Sys2Proof.Machine.execDecryptFresh r s

end Sys2Proof.Machine
end

