-- ==== Sys2Proof/Machine/Flags.lean ====
section
/-! DEFINITION. What the host reads: the observation ports (spec/10_state.md R27). There are no arithmetic flags (R26);
the status fields are `VALID` and `ERR` (R22, R23). -/

namespace Sys2Proof.Machine

/-- What the host gets back from an observation port, as a number: `VALID`, `ERR`, and `CTR`, which holds the block
counter while `VALID = 1` and returns an unspecified value while `VALID = 0` (R27, R29, spec/70_reset_and_hazards.md
R126; assumption 20). -/
def observe (p : Port) (s : State) : Nat :=
  match p with
  | .valid => s.VALID.toNat
  | .err => s.ERR.toNat
  | .ctr => if s.VALID = 1 then s.session.CTR.toNat else (Config.unspecifiedCTR s.reads).toNat

/-- What a read leaves: "reading has no side effect" (R27), but that the next unspecified value is another one
(assumption 20). -/
def State.afterRead (s : State) (p : Port) : State :=
  match p with
  | .valid | .err => s
  | .ctr => { s with reads := if s.VALID = 1 then s.reads else s.reads + 1 }

end Sys2Proof.Machine
end

