-- ==== Sys2Proof/Machine/Fetch.lean ====
section
/-! DEFINITION. What runs next: the sequencer's next item if it has one, else the host's next move
(spec/30_encoding.md R45, spec/70_reset_and_hazards.md R126). There is no program counter (spec/10_state.md R25). -/

namespace Sys2Proof.Machine

/-- What the machine finds to do. -/
inductive Fetched where
  /-- Nothing is presented. -/
  | idle
  /-- The move is complete without an instruction: RESET or an observation. -/
  | done (s : State)
  /-- An instruction to run, on the state that no longer holds the item it came from. -/
  | run (i : Instr) (s : State)
  /-- A request the spec gives no transition. -/
  | refused (r : Refusal)
  deriving DecidableEq, Repr

/-- A decoded word runs its instruction; a word the decoder rejects is refused (spec/30_encoding.md R53). -/
def fetchDecoded (d : Except Reject Instr) (s : State) : Fetched :=
  match d with
  | .ok i => .run i s
  | .error e => .refused (.undecodable e)

/-- RESET, seen by the core: no core is constructed any more (spec/70_reset_and_hazards.md R115), and its registers can
no longer be read, but "the core does not erase" the key (R117). The implementation's parameters are fixed, and the
host's remaining moves are outside the core: both stay (assumption 13). -/
def State.resetCore (s : State) : State :=
  { State.resetWith s.params with session := s.session, host := s.host, reads := s.reads }

/-- A move of the host, on the state that no longer holds it. A command is decoded before anything else is looked at
(spec/60_exceptions.md R104); a read changes nothing (spec/10_state.md R27). -/
def fetchRequest (r : Request) (s : State) : Fetched :=
  match r with
  | .reset => .done s.resetCore
  | .command cmd keybuf nonceIn din => fetchDecoded (decodeCommand cmd) (s.latch keybuf nonceIn din)
  | .observe p => .done (s.afterRead p)

/-- An item of the sequencer, on the state that no longer holds it. -/
def fetchItem (m : SeqItem) (s : State) : Fetched :=
  match m with
  | .array x => .done (s.putX x)
  | .entry q => fetchDecoded (decodeEntry q) s
  | .call i => .run i s

/-- What runs next. With nothing presented the core does nothing (assumption 2). -/
def fetch (s : State) : Fetched :=
  match s.seq with
  | m :: rest => fetchItem m { s with seq := rest }
  | [] =>
    match s.host with
    | r :: rest => fetchRequest r { s with host := rest }
    | [] => .idle

/-- `s` with an encoded word where the next step fetches: a command word as the host's next move, with the ports as they
stand; a schedule entry as the sequencer's next item (assumption 8). -/
def State.present (s : State) (w : Code) : State :=
  match w with
  | .cmd8 c => { s with host := .command c s.KEYBUF s.NONCE_IN s.DIN :: s.host, seq := [] }
  | .qri16 q => { s with seq := .entry q :: s.seq }

end Sys2Proof.Machine
end

