-- ==== Sys2Proof/Machine/Step.lean ====
section
/-! DEFINITION. One step: what is fetched runs. Each host command is one atomic step (spec/00_scope.md R13). -/

namespace Sys2Proof.Machine

/-- One step of the machine. -/
def step (s : State) : Host.Outcome State Fault Refusal :=
  match fetch s with
  | .idle => .next s
  | .done t => .next t
  | .run i t => exec i t
  | .refused r => .refused r

/-- `s` with the word `w` of `nbits` bits where step fetches next (assumption 8); a length that no format has leaves
`s` as it is. -/
def State.withFetchWord (s : State) (nbits w : Nat) : State :=
  match tableCode nbits w with
  | some c => s.present c
  | none => s

end Sys2Proof.Machine
end

