-- ==== Sys2Proof/Safety.lean ====
section
/-! DEFINITION. The vocabulary of the claims: the invariants of spec/10_state.md R17, R21, R23 and R24, a block as a
function of key, nonce, round count and number (spec/42_keystream_producer.md R80), a run of instructions, and parts of
an outcome. -/

namespace Sys2Proof.Safety

open Sys2Proof.Machine

/-- The next state of an outcome, if it is one. -/
def nextOf (r : Result) : Option State :=
  match r with
  | .next t => some t
  | _ => none

/-- The refusal of an outcome, if it is one. -/
def refusalOf (r : Result) : Option Refusal :=
  match r with
  | .refused e => some e
  | _ => none

/-- The instructions of a list, one after another, until one does not answer a next state. -/
def runAll : List Instr → State → Result
  | [], s => .next s
  | i :: rest, s => andThen (exec i s) (runAll rest)

/-- `S` is derived: it is INIT of the key, the nonce and the counter (spec/10_state.md R21). -/
abbrev Derived (c : Session) : Prop := c.S = initState c.KEY c.NONCE c.CTR

/-- The quiescent invariant of R21: whenever a core exists, its `S` is derived. -/
abbrev Quiescent (s : State) : Prop := s.VALID = 1 → Derived s.session

/-- The code `ERR` latches for a result (spec/10_state.md R23, spec/60_exceptions.md R101). -/
def errCode : Option BuildResult → BitVec 2
  | none => 0
  | some .ok => 0
  | some .invalidKeySize => 1

/-- `ERR` holds the outcome of the most recent BUILD (R23). -/
abbrev ErrLatched (s : State) : Prop := s.ERR = errCode s.RESULT

/-- A state between host operations: the sequencer has nothing to run and no transient array holds a value (R24). -/
abbrev HostLevel (s : State) : Prop := s.seq = [] ∧ s.T = none ∧ s.W = none ∧ s.OUT = none ∧ s.KS = none

/-- A core's round count is one a BUILD may select (R17, spec/00_scope.md R5, spec/92_eei_decisions.md D15). -/
abbrev RoundsOffered (s : State) : Prop := s.VALID = 1 → s.session.ROUNDS.val ∈ s.params.NUMBER_ROUND_DOMAIN

/-- The invariant of the machine. -/
abbrev Inv (s : State) : Prop := Quiescent s ∧ ErrLatched s ∧ RoundsOffered s

/-- Two states that differ at most in the registers of a core that has not been constructed (R22). -/
abbrev SameButUnbuilt (s t : State) : Prop :=
  t = { s with session := t.session } ∧ (s.VALID = 1 → t.session = s.session)

/-- Two outcomes of one kind, refusals for one reason, or next states that differ at most in the registers of a core
that has not been constructed. -/
def OutcomesAgree (r q : Result) : Prop :=
  match r, q with
  | .next s, .next t => SameButUnbuilt s t
  | .refused d, .refused e => d = e
  | .fault d, .fault e => d = e
  | .next _, .refused _ | .next _, .fault _ | .refused _, .next _ | .refused _, .fault _ | .fault _, .next _
  | .fault _, .refused _ => False

/-- Byte `i` of block number `blk` of a key, a nonce and a round count, by the closed form of
spec/42_keystream_producer.md R80 and the serialisation of R78, in numbers: the word is the sum modulo 2^32 of INIT's
word and the mixed word, and its byte `i mod 4` is taken. -/
def blockByte (key : Key) (nonce : Word64) (n : RoundCount) (blk : Word64) (i : Fin 64) : Byte :=
  let I := initState key nonce blk
  let X := runRounds n.val I
  BitVec.ofNat 8 ((I[i.val / 4].toNat + X[i.val / 4].toNat) % 2 ^ 32 / 2 ^ (8 * (i.val % 4)))

/-- The in-place listing of spec/41_round_engine.md R66: eight assignments, each using the values the earlier ones have
written. -/
def quarterRoundInPlace {n : Nat} (x : Vector Word n) (a b c d : Fin n) : Vector Word n :=
  let x := x.set a (add32 x[a] x[b])
  let x := x.set d (rotl32 (xor32 x[d] x[a]) 16)
  let x := x.set c (add32 x[c] x[d])
  let x := x.set b (rotl32 (xor32 x[b] x[c]) 12)
  let x := x.set a (add32 x[a] x[b])
  let x := x.set d (rotl32 (xor32 x[d] x[a]) 8)
  let x := x.set c (add32 x[c] x[d])
  x.set b (rotl32 (xor32 x[b] x[c]) 7)

/-- The schedule of one double round, each entry with its tuple (spec/30_encoding.md R52). -/
def schedule : List (Instr × Index × Index × Index × Index) :=
  [(.sched0, 0, 4, 8, 12), (.sched1, 1, 5, 9, 13), (.sched2, 2, 6, 10, 14), (.sched3, 3, 7, 11, 15),
   (.sched4, 0, 5, 10, 15), (.sched5, 1, 6, 11, 12), (.sched6, 2, 7, 8, 13), (.sched7, 3, 4, 9, 14)]

/-- An instruction that can construct a core: a BUILD or a pseudo-operation that begins with one. -/
def isBuild : Instr → Bool
  | .build8 | .build12 | .build20 | .encryptFresh _ | .decryptFresh _ => true
  | .encrypt | .decrypt => false
  | .qr _ _ _ _ => false
  | .sched0 | .sched1 | .sched2 | .sched3 | .sched4 | .sched5 | .sched6 | .sched7 => false
  | .init _ _ _ => false
  | .cround | .dground | .dround => false
  | .rounds _ => false
  | .ksb => false
  | .xorc _ => false

end Sys2Proof.Safety
end

