-- ==== Sys2Proof/Certificates/Slice0/Obligations.lean ====
section
/-! DEFINITION. The statements for the provers, from the numbered rules of spec/. None is about a program. -/

open Sys2Proof Sys2Proof.Machine Sys2Proof.Safety

/-! ## Primitives (spec/00_scope.md section 5, spec/20_memory.md) -/

/-- R6: add32 is addition modulo 2^32, commutative, associative, with identity 0; the carry is discarded. And add64 (the
formula and the worked value of R9) is addition modulo 2^64. -/
def Obligations.AdditionPrimitivesWrap : Prop :=
  (∀ x y : Word, (add32 x y).toNat = (x.toNat + y.toNat) % 2 ^ 32) ∧
  (∀ x y : Word, add32 x y = add32 y x) ∧
  (∀ x y z : Word, add32 (add32 x y) z = add32 x (add32 y z)) ∧
  (∀ x : Word, add32 x 0 = x) ∧
  add32 0xffffffff 1 = 0 ∧ add32 0x80000000 0x80000000 = 0 ∧
  (∀ x y : Word64, (add64 x y).toNat = (x.toNat + y.toNat) % 2 ^ 64) ∧ add64 0xffffffffffffffff 1 = 0

/-- R7: xor32 and xor8 are bitwise exclusive or: bit i of the result is 1 when bit i of the operands differ, with the
laws of R7, among them the one the round trip rests on. -/
def Obligations.XorPrimitivesAreBitwise : Prop :=
  (∀ (x y : Word) (i : Nat), (xor32 x y).getLsbD i = (x.getLsbD i != y.getLsbD i)) ∧
  (∀ (x y : Byte) (i : Nat), (xor8 x y).getLsbD i = (x.getLsbD i != y.getLsbD i)) ∧
  (∀ x y : Word, xor32 x y = xor32 y x) ∧ (∀ x y z : Word, xor32 (xor32 x y) z = xor32 x (xor32 y z)) ∧
  (∀ x : Word, xor32 x 0 = x ∧ xor32 x x = 0) ∧ (∀ x k : Word, xor32 (xor32 x k) k = x) ∧
  (∀ x y : Byte, xor8 x y = xor8 y x) ∧ (∀ x y z : Byte, xor8 (xor8 x y) z = xor8 x (xor8 y z)) ∧
  (∀ x : Byte, xor8 x 0 = x ∧ xor8 x x = 0) ∧ (∀ x k : Byte, xor8 (xor8 x k) k = x)

/-- R8: rotl32 by its formula, and bit by bit: bit i becomes bit (i + r) mod 32. -/
def Obligations.Rotl32MovesEveryBit : Prop :=
  ∀ (x : Word) (r : Nat), 0 < r → r < 32 →
    (rotl32 x r).toNat = x.toNat * 2 ^ r % 2 ^ 32 + x.toNat / 2 ^ (32 - r) ∧
    ∀ i, i < 32 → (rotl32 x r).getLsbD ((i + r) % 32) = x.getLsbD i

/-- R10 and R11: le32dec and le32enc by their formulas, inverse to each other in both directions, with the rules'
worked values. -/
def Obligations.Le32CodingIsLittleEndianAndInverse : Prop :=
  (∀ b0 b1 b2 b3 : Byte,
    (le32dec b0 b1 b2 b3).toNat = b0.toNat + 256 * b1.toNat + 65536 * b2.toNat + 16777216 * b3.toNat) ∧
  (∀ w : Word, ∀ k : Fin 4, (le32enc w)[k].toNat = w.toNat / 2 ^ (8 * k.val) % 256) ∧
  (∀ w : Word, le32dec (le32enc w)[0] (le32enc w)[1] (le32enc w)[2] (le32enc w)[3] = w) ∧
  (∀ b0 b1 b2 b3 : Byte, le32enc (le32dec b0 b1 b2 b3) = #v[b0, b1, b2, b3]) ∧
  le32dec 0x78 0x56 0x34 0x12 = 0x12345678 ∧ le32enc 0x61707865 = #v[0x65, 0x78, 0x70, 0x61]

/-- R12: a 64-bit value splits into lo32 and hi32, and where it occupies two state words the low half stands in the
lower-numbered word: the block counter in words 12 and 13, the nonce in words 14 and 15. -/
def Obligations.LoHiSplitAndPlacement : Prop :=
  (∀ v : Word64, (lo32 v).toNat = v.toNat % 2 ^ 32 ∧ (hi32 v).toNat = v.toNat / 2 ^ 32 ∧
    v.toNat = (lo32 v).toNat + 2 ^ 32 * (hi32 v).toNat) ∧
  ∀ (key : Key) (nonce blk : Word64),
    (initState key nonce blk)[12] = lo32 blk ∧ (initState key nonce blk)[13] = hi32 blk ∧
    (initState key nonce blk)[14] = lo32 nonce ∧ (initState key nonce blk)[15] = hi32 nonce

/-- R32: MemRead and MemWrite of 1 and 4 bytes: a write changes the bytes named and nothing else, a read after it gives
what was written; and MemRead of 4 bytes at 4 i of a serialised block gives its word i back (R78). -/
def Obligations.MemoryPrimitivesReadBack : Prop :=
  (∀ (out : Words) (i : Index), memRead4 (serialize out) (4 * i.val) = out[i]) ∧
  ∀ (n : Nat) (sp : Vector Byte n) (i : Nat),
    (∀ (h : i < n) (v : Byte) (j : Nat) (hj : j < n),
      memRead1 (memWrite1 sp i v h) j hj = if j = i then v else memRead1 sp j hj) ∧
    (∀ (h : i + 4 ≤ n) (v : Word),
      memRead4 (memWrite4 sp i v h) i h = v ∧
      ∀ (j : Nat) (hj : j < n),
        memRead1 (memWrite4 sp i v h) j hj =
          if hk : i ≤ j ∧ j < i + 4 then (le32enc v)[j - i]'(by omega) else memRead1 sp j hj)

/-! ## Encoding (spec/30_encoding.md) -/

/-- R47 to R49, R51, R52: words written out from the spec's encodings decode to what they stand for. That the three
scheduled words are answered under the names SCHED.0, SCHED.5 and SCHED.7, and not as the QR tuples of
spec/95_test_vectors.md section 2.11, is the model's choice (assumption 7, DESIGN CHOICE). -/
def Obligations.KnownWordsDecode : Prop :=
  decodeCommand 0b00010000 = .ok .build8 ∧ decodeCommand 0b00010001 = .ok .build12 ∧
  decodeCommand 0b00010010 = .ok .build20 ∧ decodeCommand 0b00100000 = .ok .encrypt ∧
  decodeCommand 0b00110000 = .ok .decrypt ∧
  decodeEntry 0b0000010010001100 = .ok .sched0 ∧ decodeEntry 0b0001011010111100 = .ok .sched5 ∧
  decodeEntry 0b0011010010011110 = .ok .sched7 ∧ decodeEntry 0b0000000100100011 = .ok (.qr 0 1 2 3)

/-- R53, R54, R104: every command word but five is reserved, 251 of the 256; a step that finds one is refused, whatever
the operands, so nothing changes. -/
def Obligations.ReservedCommandWordsAreRefused : Prop :=
  ((List.range 256).filter fun n => (decodeCommand (BitVec.ofNat 8 n)).toOption.isNone).length = 251 ∧
  ∀ (s : State) (c : BitVec 8) (k : List Byte) (n : Word64) (d : List Byte) (rest : List Request),
    s.seq = [] → s.host = .command c k n d :: rest → c ∉ [0x10, 0x11, 0x12, 0x20, 0x30] →
    ∃ e, step s = .refused (.undecodable e)

/-- R51, R67: a schedule entry holds its four indices from the most significant nibble down; it decodes to the quarter
round on them, under its scheduled name where it has one (assumption 7), and with two equal indices it is rejected. -/
def Obligations.ScheduleEntryFieldsDecode : Prop :=
  ∀ a b c d : Index,
    (entryWord a b c d).toNat = 4096 * a.val + 256 * b.val + 16 * c.val + d.val ∧
    (distinctIndices a b c d = true → decodeEntry (entryWord a b c d) = .ok (Instr.qr a b c d).canon) ∧
    (distinctIndices a b c d = false → decodeEntry (entryWord a b c d) = .error (.equalIndices (entryWord a b c d)))

/-- Decoding the word of a well-formed instruction gives it back, a QR on a scheduled tuple under its scheduled name
(assumption 7); every other instruction is its own canonical name. -/
def Obligations.DecodeOfEncodeIsTheInstruction : Prop :=
  (∀ (i : Instr) (w : Code), WellFormed i → encode i = some w → decode w = .ok i.canon) ∧
  (∀ i : Instr, (∀ a b c d, i = .qr a b c d →
      (a, b, c, d) ∉ ([(0, 4, 8, 12), (1, 5, 9, 13), (2, 6, 10, 14), (3, 7, 11, 15), (0, 5, 10, 15), (1, 6, 11, 12),
        (2, 7, 8, 13), (3, 4, 9, 14)] : List (Index × Index × Index × Index))) → i.canon = i)

/-- Every word the decoder accepts is the word of what it answers, which is well formed: no word has two readings. -/
def Obligations.EncodeOfDecodeIsTheWord : Prop :=
  ∀ (w : Code) (i : Instr), decode w = .ok i → WellFormed i ∧ encode i = some w

/-- A scheduled name and the QR it names have one meaning, in every state. -/
def Obligations.CanonicalNameKeepsMeaning : Prop :=
  ∀ (i : Instr) (s : State), exec i.canon s = exec i s

/-- R17, R47: the variants are 8, 12 and 20 rounds, that is 4, 6 and 10 double rounds, each even; a register holds them
as these counts, and they are the default NUMBER_ROUND_DOMAIN. -/
def Obligations.VariantRoundCounts : Prop :=
  [Variant.r8, .r12, .r20].map numberRound = Config.params.NUMBER_ROUND_DOMAIN ∧
  [Variant.r8, .r12, .r20].map (fun r => (variantCount r).val) = [8, 12, 20] ∧
  [Variant.r8, .r12, .r20].map (fun r => numberRound r / 2) = [4, 6, 10] ∧
  [Variant.r8, .r12, .r20].map (fun r => (buildWord r).toNat) = [0x10, 0x11, 0x12] ∧
  ∀ r : Variant, numberRound r % 2 = 0 ∧ r ∈ [Variant.r8, .r12, .r20]

/-! ## Steps -/

/-- A step runs the decoded command: with the sequencer empty and a command the host's next move, step is exec of the
instruction its word decodes to, on the state in which the request is consumed and its operands stand on the ports. -/
def Obligations.StepRunsThePresentedCommand : Prop :=
  ∀ (s : State) (c : BitVec 8) (k : List Byte) (n : Word64) (d : List Byte) (rest : List Request) (i : Instr),
    s.seq = [] → s.host = .command c k n d :: rest → decodeCommand c = .ok i →
    step s = exec i { s with host := rest, KEYBUF := k, NONCE_IN := n, DIN := d }

/-- A step runs the sequencer's next item: a schedule entry is decoded and run, a called procedure is run, an array
becomes the operand of what follows; two equal indices are refused. The sequencer's list and the operand array X are the
model's (assumptions 5 and 6). -/
def Obligations.StepRunsTheSequencerItem : Prop :=
  ∀ (s : State) (rest : List SeqItem),
    (∀ (q : BitVec 16) (i : Instr), s.seq = .entry q :: rest → decodeEntry q = .ok i →
      step s = exec i { s with seq := rest }) ∧
    (∀ (q : BitVec 16) (e : Reject), s.seq = .entry q :: rest → decodeEntry q = .error e →
      step s = .refused (.undecodable e)) ∧
    (∀ i : Instr, s.seq = .call i :: rest → step s = exec i { s with seq := rest }) ∧
    (∀ x : Words, s.seq = .array x :: rest → step s = .next { s with seq := rest, X := x })

/-- A word placed where step fetches is the word step runs (assumption 8): a command with the ports as they stand, a
schedule entry on the state as it stands. -/
def Obligations.StepRunsTheFetchWord : Prop :=
  ∀ (s : State) (w : Nat) (i : Instr),
    (decodeTableWord 8 w = some i → step (s.withFetchWord 8 w) = exec i { s with seq := [] }) ∧
    (decodeTableWord 16 w = some i → step (s.withFetchWord 16 w) = exec i s)

/-- With nothing presented the core does nothing (the model's choice, assumption 2). -/
def Obligations.StepWithNothingPresentedIsIdle : Prop :=
  ∀ s : State, s.seq = [] → s.host = [] → step s = .next s

/-- R115, R29: RESET leaves VALID = 0 and ERR = 0, no transient array a value, and only BUILD admitted: ENCRYPT and
DECRYPT are refused. What the core's registers and the parameters then hold is left as it was (the model's choice,
assumptions 11 and 13); that no one can tell is the next statement. -/
def Obligations.ResetLeavesNoCore : Prop :=
  ∀ (s : State) (rest : List Request), s.seq = [] → s.host = .reset :: rest →
    ∃ t, step s = .next t ∧ t.VALID = 0 ∧ t.ERR = 0 ∧ t.W = none ∧ t.OUT = none ∧ t.KS = none ∧ t.host = rest ∧
      t.session = s.session ∧ t.params = s.params ∧
      ∀ i ∈ [Instr.encrypt, .decrypt], exec i t = .refused .noCore

/-- R29, R22: the state after reset has VALID = 0, ERR = 0 and no transient array with a value; and while VALID = 0 KEY,
NONCE, ROUNDS, CTR and S hold no value that matters: two states that differ in nothing else answer every port alike, and
their steps agree, in the refusal or in all but those registers, which agree too once a core is constructed. So no value
the model gives them at reset (assumption 1, DESIGN CHOICE) can be told from any other. -/
def Obligations.RegistersOfNoCoreCannotMatter : Prop :=
  (State.reset.VALID = 0 ∧ State.reset.ERR = 0 ∧ State.reset.W = none ∧ State.reset.OUT = none ∧
    State.reset.KS = none) ∧
  ∀ s t : State, SameButUnbuilt s t → (∀ p, observe p s = observe p t) ∧ OutcomesAgree (step s) (step t)

/-- R27, R29, R126: a read of VALID or ERR, and of CTR while VALID = 1, has no side effect but that the request is over,
and the host gets back what the register holds. A read of CTR while VALID = 0 completes too and returns an unspecified
value, another for each such read (the model's free value in place of the refusal of R108, assumption 20). -/
def Obligations.ObservationHasNoSideEffect : Prop :=
  ∀ (s : State) (p : Port) (rest : List Request), s.seq = [] → s.host = .observe p :: rest →
    ((p ≠ .ctr ∨ s.VALID = 1) → step s = .next { s with host := rest }) ∧
    (p = .ctr → s.VALID = 0 → step s = .next { s with host := rest, reads := s.reads + 1 }) ∧
    observe .valid s = s.VALID.toNat ∧ observe .err s = s.ERR.toNat ∧
    (s.VALID = 1 → observe .ctr s = s.session.CTR.toNat) ∧
    (s.VALID = 0 → observe .ctr s = (Config.unspecifiedCTR s.reads).toNat)

/-! ## BUILD (spec/44_builder.md) -/

/-- R95: with a key of 32 bytes (and a round count that NUMBER_ROUND_DOMAIN offers, R5), BUILD stores the key bytes in
order, the nonce and the round count, sets the counter to 0, computes the first state with INIT at block number 0, sets
VALID and clears ERR, and writes nothing else. -/
def Obligations.BuildConstructsTheCore : Prop :=
  ∀ (s : State) (key : Key), s.KEYBUF = key.toList →
    ∀ p ∈ [(Instr.build8, Variant.r8), (.build12, .r12), (.build20, .r20)],
      numberRound p.2 ∈ s.params.NUMBER_ROUND_DOMAIN →
      exec p.1 s = .next { s with
        VALID := 1, session := ⟨key, s.NONCE_IN, variantCount p.2, 0, initState key s.NONCE_IN 0⟩
        ERR := 0, RESULT := some .ok }

/-- R93, R96, R101: with a key of any other length BUILD (of a round count that is offered, R5) reports InvalidKeySize:
the result and ERR = 1 are recorded and nothing else is written, so an earlier core stays as it was. -/
def Obligations.BuildRejectsOtherKeyLengths : Prop :=
  ∀ s : State, s.KEYBUF.length ≠ 32 →
    ∀ p ∈ [(Instr.build8, Variant.r8), (.build12, .r12), (.build20, .r20)],
      numberRound p.2 ∈ s.params.NUMBER_ROUND_DOMAIN →
      exec p.1 s = .next { s with ERR := 1, RESULT := some .invalidKeySize }

/-- R100: InvalidKeySize is raised by BUILD (alone or first in a pseudo-operation) exactly when KLEN is not 32, and by
nothing else; nothing else writes ERR (R23). That an instruction that builds nothing leaves the result port too is the
model's choice (assumption 4, DESIGN CHOICE). When a BUILD raises it, the session is not written. -/
def Obligations.InvalidKeySizeOnlyFromBuild : Prop :=
  ∀ (i : Instr) (s t : State), exec i s = .next t →
    (isBuild i = false → t.ERR = s.ERR ∧ t.RESULT = s.RESULT) ∧
    (isBuild i = true →
      (t.ERR = 1 ↔ s.KEYBUF.length ≠ 32) ∧ (t.RESULT = some .invalidKeySize ↔ s.KEYBUF.length ≠ 32) ∧
      (t.ERR = 0 ∨ t.ERR = 1)) ∧
    (isBuild i = true → i.format = .cmd8 → s.KEYBUF.length ≠ 32 → t.session = s.session)

/-- R22: VALID is set by a successful BUILD, left by a failed one, written by no other instruction and cleared by
none. -/
def Obligations.ValidIsSetByBuildAlone : Prop :=
  ∀ (i : Instr) (s t : State), exec i s = .next t →
    (isBuild i = false → t.VALID = s.VALID) ∧
    (isBuild i = true → s.KEYBUF.length = 32 → t.VALID = 1) ∧
    (isBuild i = true → s.KEYBUF.length ≠ 32 → t.VALID = s.VALID)

/-- R15, R16, R17: KEY, NONCE and ROUNDS are immutable after construction: only a successful BUILD writes them. -/
def Obligations.KeyNonceRoundsAreImmutable : Prop :=
  ∀ (i : Instr) (s t : State) (c : Session), exec i s = .next t → s.VALID = 1 → s.session = c →
    isBuild i = false ∨ s.KEYBUF.length ≠ 32 →
    ∃ c', t.VALID = 1 ∧ t.session = c' ∧ c'.KEY = c.KEY ∧ c'.NONCE = c.NONCE ∧ c'.ROUNDS = c.ROUNDS

/-! ## INIT (spec/40_state_initializer.md) -/

/-- R59 to R63: INIT decodes the key as eight little-endian words into words 4 to 11, in key order, the block number and
the nonce low half first into words 12, 13 and 14, 15, and puts the constants in words 0 to 3; it reads and writes no
register. That its result stands in T when it is run on its own is the model's choice (assumption 5, DESIGN CHOICE). -/
def Obligations.InitBuildsTheSixteenWords : Prop :=
  ∀ (s : State) (key : Key) (nonce blk : Word64), ∃ X : Words,
    exec (.init key nonce blk) s = .next { s with T := some X } ∧
    X[0] = 0x61707865 ∧ X[1] = 0x3320646e ∧ X[2] = 0x79622d32 ∧ X[3] = 0x6b206574 ∧
    (∀ j : Fin 8, X[4 + j.val].toNat =
      key[4 * j.val].toNat + 256 * key[4 * j.val + 1].toNat + 65536 * key[4 * j.val + 2].toNat +
        16777216 * key[4 * j.val + 3].toNat) ∧
    X[12].toNat = blk.toNat % 2 ^ 32 ∧ X[13].toNat = blk.toNat / 2 ^ 32 ∧
    X[14].toNat = nonce.toNat % 2 ^ 32 ∧ X[15].toNat = nonce.toNat / 2 ^ 32

/-- R65: block numbers n and n + 1 give states that differ in word 12 always, in word 13 exactly when the low half of n
is all ones, and in no other word; two block numbers give one state exactly when they are equal. -/
def Obligations.ConsecutiveStatesDifferInTheCounterOnly : Prop :=
  ∀ (key : Key) (nonce n : Word64),
    (initState key nonce n)[12] ≠ (initState key nonce (n + 1))[12] ∧
    ((initState key nonce n)[13] ≠ (initState key nonce (n + 1))[13] ↔ lo32 n = 0xffffffff) ∧
    (∀ i : Index, i ≠ 12 → i ≠ 13 → (initState key nonce n)[i] = (initState key nonce (n + 1))[i]) ∧
    ∀ m : Word64, initState key nonce m = initState key nonce n ↔ m = n

/-! ## Round Engine (spec/41_round_engine.md) -/

/-- R66: a quarter round with four different indices writes the four words the rule's pure form gives, leaves every
other word, and writes nothing but its operand array, which stands in X (the model's choice, assumption 5). -/
def Obligations.QuarterRoundWritesItsFourWords : Prop :=
  ∀ (s : State) (a b c d : Index), distinctIndices a b c d = true →
    ∃ y : Words, exec (.qr a b c d) s = .next { s with X := y } ∧
      (let a1 := s.X[a] + s.X[b]
       let d1 := (s.X[d] ^^^ a1).rotateLeft 16
       let c1 := s.X[c] + d1
       let b1 := (s.X[b] ^^^ c1).rotateLeft 12
       let a2 := a1 + b1
       let d2 := (d1 ^^^ a2).rotateLeft 8
       let c2 := c1 + d2
       let b2 := (b1 ^^^ c2).rotateLeft 7
       y[a] = a2 ∧ y[b] = b2 ∧ y[c] = c2 ∧ y[d] = d2) ∧
      ∀ i : Index, i ≠ a → i ≠ b → i ≠ c → i ≠ d → y[i] = s.X[i]

/-- R66: on an array of any length, with four different indices, the pure form is the source's in-place listing of eight
assignments. -/
def Obligations.QuarterRoundIsTheInPlaceListing : Prop :=
  ∀ (n : Nat) (x : Vector Word n) (a b c d : Fin n), [a, b, c, d].Nodup →
    quarterRound x a b c d = quarterRoundInPlace x a b c d

/-- R67: a quarter round with two equal indices is refused, and each of the eight scheduled tuples has four different
ones. -/
def Obligations.EqualIndicesAreRefused : Prop :=
  (∀ (s : State) (a b c d : Index), distinctIndices a b c d = false → exec (.qr a b c d) s = .refused .equalIndices) ∧
  ∀ p ∈ schedule, distinctIndices p.2.1 p.2.2.1 p.2.2.2.1 p.2.2.2.2 = true

/-- R52: each schedule entry is the quarter round on its tuple, under its 16-bit word, on the operand array X
(assumption 5); in each half every index occurs once. -/
def Obligations.ScheduleEntriesAreTheirQuarterRounds : Prop :=
  (∀ s : State, ∀ p ∈ schedule,
    exec p.1 s = .next { s with X := quarterRound s.X p.2.1 p.2.2.1 p.2.2.2.1 p.2.2.2.2 }) ∧
  schedule.map (fun p => encode p.1) =
    [0x048C, 0x159D, 0x26AE, 0x37BF, 0x05AF, 0x16BC, 0x278D, 0x349E].map (fun q => some (Code.qri16 q)) ∧
  ∀ i : Index,
    (((schedule.take 4).flatMap fun p => [p.2.1, p.2.2.1, p.2.2.2.1, p.2.2.2.2]).count i) = 1 ∧
    (((schedule.drop 4).flatMap fun p => [p.2.1, p.2.2.1, p.2.2.2.1, p.2.2.2.2]).count i) = 1

/-- R68, R69, R70: CROUND runs entries 0 to 3, DGROUND entries 4 to 7 and DROUND all eight, in order; each writes
its operand array X (assumption 5) and nothing else. -/
def Obligations.HalfAndDoubleRoundsRunTheSchedule : Prop :=
  ∀ s : State,
    (∃ y, exec .cround s = .next { s with X := y } ∧
      runAll [.qr 0 4 8 12, .qr 1 5 9 13, .qr 2 6 10 14, .qr 3 7 11 15] s = .next { s with X := y }) ∧
    (∃ y, exec .dground s = .next { s with X := y } ∧
      runAll [.qr 0 5 10 15, .qr 1 6 11 12, .qr 2 7 8 13, .qr 3 4 9 14] s = .next { s with X := y }) ∧
    (∃ y, exec .dround s = .next { s with X := y } ∧
      runAll [.cround, .dground] s = .next { s with X := y } ∧
      runAll [.sched0, .sched1, .sched2, .sched3, .sched4, .sched5, .sched6, .sched7] s =
        .next { s with X := y })

/-- R68: two quarter rounds on eight different words may be run in either order: the result, refusal or next state, is
the same. -/
def Obligations.DisjointQuarterRoundsCommute : Prop :=
  ∀ (s : State) (a b c d e f g h : Index), [a, b, c, d, e, f, g, h].Nodup →
    runAll [.qr a b c d, .qr e f g h] s = runAll [.qr e f g h, .qr a b c d] s

/-- R71: ROUNDS with a positive even count n runs n / 2 double rounds, one after another, on its operand array X
(assumption 5), and writes nothing else. -/
def Obligations.RoundsRunsHalfAsManyDoubleRounds : Prop :=
  ∀ (s : State) (n : Nat), 0 < n → n % 2 = 0 →
    ∃ y, exec (.rounds n) s = .next { s with X := y } ∧
      runAll (List.replicate (n / 2) .dround) s = .next { s with X := y }

/-- R71, R125: an odd or non-positive round count is refused. -/
def Obligations.OddRoundCountsAreRefused : Prop :=
  ∀ (s : State) (n : Nat), n = 0 ∨ n % 2 = 1 → exec (.rounds n) s = .refused (.roundCount n)

/-- R73, R102: every Round Engine instruction whose operands are well formed completes in every state, constructed or
not, and writes its operand array X and nothing else (the model's place for it, assumption 5). -/
def Obligations.RoundEngineRunsInEveryState : Prop :=
  ∀ (s : State) (i : Instr), WellFormed i →
    (i.format = .qri16 ∨ i ∈ [Instr.cround, .dground, .dround] ∨ ∃ n, i = .rounds n) →
    ∃ y : Words, exec i s = .next { s with X := y }

/-- R73: QR with four different indices is a bijection, on arrays of any length; and for every instruction of the Round
Engine on 16-word arrays, each array is the result of exactly one: the steps can be run backwards (the
array stands in X, the model's choice, assumption 5). -/
def Obligations.RoundEngineIsBijective : Prop :=
  (∀ (n : Nat) (a b c d : Fin n), [a, b, c, d].Nodup →
    Function.Bijective (fun x : Vector Word n => quarterRound x a b c d)) ∧
  ∀ (s : State) (y : Words),
    (∀ a b c d : Index, distinctIndices a b c d = true →
      ∃! x, exec (.qr a b c d) { s with X := x } = .next { s with X := y }) ∧
    (∀ i ∈ [Instr.cround, .dground, .dround], ∃! x, exec i { s with X := x } = .next { s with X := y }) ∧
    ∀ n : Nat, 0 < n → n % 2 = 0 → ∃! x, exec (.rounds n) { s with X := x } = .next { s with X := y }

/-! ## Keystream Producer (spec/42_keystream_producer.md) -/

/-- R74, R75, R77, R78: with a core, KSB mixes a working copy of S, adds the pre-round state word by word, serialises
the sum little-endian in word order, adds 1 to the counter and recomputes S with INIT; it writes nothing else. -/
def Obligations.KsbProducesOneBlock : Prop :=
  ∀ (s : State) (c : Session), s.VALID = 1 → s.session = c →
    ∃ (W OUT : Words) (KS : Block),
      exec .ksb s = .next { s with
        session := { c with CTR := c.CTR + 1, S := initState c.KEY c.NONCE (c.CTR + 1) }
        W := some W, OUT := some OUT, KS := some KS } ∧
      exec (.rounds c.ROUNDS.val) { s with X := c.S } = .next { s with X := W } ∧
      (∀ i : Index, OUT[i].toNat = (c.S[i].toNat + W[i].toNat) % 2 ^ 32) ∧
      ∀ i : Fin 64, KS[i].toNat = OUT[i.val / 4].toNat / 2 ^ (8 * (i.val % 4)) % 256

/-- R76: KSB adds exactly 1 to the counter, modulo 2^64; words 12 and 13 of S behave as one 64-bit number. -/
def Obligations.KsbCountsAcrossTheTwoWords : Prop :=
  ∀ (s : State) (c : Session), s.VALID = 1 → s.session = c →
    ∃ t c', exec .ksb s = .next t ∧ t.VALID = 1 ∧ t.session = c' ∧ c'.CTR.toNat = (c.CTR.toNat + 1) % 2 ^ 64 ∧
      c'.S[12] = lo32 c'.CTR ∧ c'.S[13] = hi32 c'.CTR ∧
      (lo32 c.CTR = 0xffffffff → c'.S[12] = 0 ∧ c'.S[13] = hi32 c.CTR + 1) ∧
      (lo32 c.CTR ≠ 0xffffffff → c'.S[12] = lo32 c.CTR + 1 ∧ c'.S[13] = hi32 c.CTR) ∧
      (c.CTR = 0x00000000ffffffff → c'.CTR = 0x0000000100000000 ∧ c'.S[12] = 0x00000000 ∧ c'.S[13] = 0x00000001)

/-- R80: the block is a function of key, nonce, round count and counter alone, by the closed form; afterwards the
counter is n + 1 modulo 2^64 and S is INIT of it. -/
def Obligations.KsbClosedForm : Prop :=
  ∀ (s : State) (c : Session), s.VALID = 1 → s.session = c → Derived c →
    ∃ t KS, exec .ksb s = .next t ∧ t.KS = some KS ∧
      (∀ i : Fin 64, KS[i] = blockByte c.KEY c.NONCE c.ROUNDS c.CTR i) ∧
      t.VALID = 1 ∧ t.session = ⟨c.KEY, c.NONCE, c.ROUNDS, c.CTR + 1, initState c.KEY c.NONCE (c.CTR + 1)⟩

/-- R81: at the last counter value KSB produces its block, the counter becomes 0 with no error and no stop, and the next
KSB produces block number 0 again. -/
def Obligations.CounterWrapRepeatsTheKeystream : Prop :=
  ∀ (s : State) (c : Session), s.VALID = 1 → s.session = c → c.CTR = 0xffffffffffffffff →
    ∃ t c' u KS, exec .ksb s = .next t ∧ t.VALID = 1 ∧ t.session = c' ∧ c'.CTR = 0 ∧ t.ERR = s.ERR ∧
      exec .ksb t = .next u ∧ u.KS = some KS ∧
      ∀ i : Fin 64, KS[i] = blockByte c.KEY c.NONCE c.ROUNDS 0 i

/-! ## Stream Combiner (spec/43_stream_combiner.md) -/

/-- R83, R87: XORC on a chunk of 1 to 64 bytes runs one KSB and combines each byte with the byte of the block at its
position; the block's other bytes are dropped, and beyond what KSB writes only DOUT changes (where a lone XORC's output
stands is the model's choice, assumption 5). -/
def Obligations.XorcCombinesOneChunk : Prop :=
  ∀ (s : State) (c : Session) (chunk : List Byte), s.VALID = 1 → s.session = c → 1 ≤ chunk.length → chunk.length ≤ 64 →
    ∃ t KS out, exec .ksb s = .next t ∧ t.KS = some KS ∧
      exec (.xorc chunk) s = .next { t with DOUT := out } ∧ out.length = chunk.length ∧
      ∀ (i : Nat) (h : i < chunk.length) (h64 : i < 64), out[i]? = some (chunk[i] ^^^ KS[i])

/-- R83: a chunk that has not 1 to 64 bytes is no operand of XORC: refused (the model's reading, assumption 12). -/
def Obligations.XorcRefusesOtherLengths : Prop :=
  ∀ (s : State) (chunk : List Byte), chunk.length = 0 ∨ 64 < chunk.length →
    exec (.xorc chunk) s = .refused (.chunkLength chunk.length)

/-- R84, R85, R86: ENCRYPT and DECRYPT of n bytes answer n bytes, byte i being the input's byte i against byte i mod 64
of block number counter + i / 64; the counter advances by ceil(n / 64) modulo 2^64 and S is INIT of it, and nothing else
changes but the transients: they hold no value afterwards (R24), INIT's T among them, which is the model's choice
(assumption 5, DESIGN CHOICE). -/
def Obligations.StreamIsXoredWithSuccessiveBlocks : Prop :=
  ∀ (s : State) (c : Session), s.VALID = 1 → s.session = c → Derived c →
    lengthAdmitted s.params.MAX_LEN s.DIN.length = true →
    ∃ out : List Byte,
      (∀ i ∈ [Instr.encrypt, .decrypt],
        exec i s = .next { s with
          session := { c with
            CTR := c.CTR + BitVec.ofNat 64 ((s.DIN.length + 63) / 64)
            S := initState c.KEY c.NONCE (c.CTR + BitVec.ofNat 64 ((s.DIN.length + 63) / 64)) }
          DOUT := out, T := none, W := none, OUT := none, KS := none }) ∧
      out.length = s.DIN.length ∧
      ∀ (i : Nat) (h : i < s.DIN.length),
        out[i]? = some (s.DIN[i] ^^^
          blockByte c.KEY c.NONCE c.ROUNDS (c.CTR + BitVec.ofNat 64 (i / 64)) ⟨i % 64, Nat.mod_lt _ (by decide)⟩)

/-- R86: the empty input asks for no block: the output is empty and the session is unchanged, S included, whatever it
holds. -/
def Obligations.EmptyInputAsksForNoBlock : Prop :=
  ∀ (s : State) (c : Session), s.VALID = 1 → s.session = c → s.DIN = [] →
    ∀ i ∈ [Instr.encrypt, .decrypt], ∃ t, exec i s = .next t ∧ t.VALID = 1 ∧ t.session = c ∧ t.DOUT = []

/-- R85: DECRYPT is ENCRYPT: the same outcome in every state. -/
def Obligations.DecryptIsEncrypt : Prop :=
  ∀ s : State, exec .decrypt s = exec .encrypt s

/-- R91: without a core ENCRYPT and DECRYPT are refused, whatever the operand. That KSB, and XORC on a chunk of 1 to 64
bytes, are refused too when they are run on their own is the model's inference, and no rule says it: R74 makes VALID = 1
a precondition, and R108 refuses a read of the registers KSB reads (assumption 19, DEDUCED). -/
def Obligations.NoCoreNoStream : Prop :=
  ∀ s : State, s.VALID = 0 →
    (∀ i ∈ [Instr.encrypt, .decrypt, .ksb], exec i s = .refused .noCore) ∧
    ∀ chunk : List Byte, chunkLengthOk chunk.length = true → exec (.xorc chunk) s = .refused .noCore

/-- R5, D15, D16: the open parameters are arguments of the model. Where MAX_LEN is set to m, ENCRYPT and DECRYPT refuse
a longer input and admit every other, where it is none they admit every input, and neither changes what they do. Where
NUMBER_ROUND_DOMAIN offers a round count, any positive even one, BUILD of it runs, and where it does not, BUILD is
refused (the refusal is the model's reading, assumption 11). -/
def Obligations.OpenParametersAreArguments : Prop :=
  (∀ (s : State) (c : Session) (m : Nat), s.VALID = 1 → s.session = c → s.params.MAX_LEN = some m →
    ∀ i ∈ [Instr.encrypt, .decrypt],
      (m < s.DIN.length → exec i s = .refused (.inputTooLong s.DIN.length)) ∧
      (s.DIN.length ≤ m → ∃ t, exec i { s with params := { s.params with MAX_LEN := none } } = .next t ∧
        exec i s = .next { t with params := s.params })) ∧
  (∀ (s : State) (c : Session), s.VALID = 1 → s.session = c → s.params.MAX_LEN = none →
    ∀ i ∈ [Instr.encrypt, .decrypt], ∃ t, exec i s = .next t) ∧
  (∀ (s : State) (n : RoundCount),
    (n.val ∈ s.params.NUMBER_ROUND_DOMAIN → ∃ t, build n s = .next t ∧
      ∀ key : Key, s.KEYBUF = key.toList →
        t.VALID = 1 ∧ t.session = ⟨key, s.NONCE_IN, n, 0, initState key s.NONCE_IN 0⟩) ∧
    (n.val ∉ s.params.NUMBER_ROUND_DOMAIN → build n s = .refused (.roundCountNotOffered n.val))) ∧
  ∀ s : State, exec .build8 s = build (variantCount .r8) s ∧ exec .build12 s = build (variantCount .r12) s ∧
    exec .build20 s = build (variantCount .r20) s

/-- R88: two cores that hold the same session: what one encrypts the other decrypts. -/
def Obligations.RoundTripFromEqualSessions : Prop :=
  ∀ (s u : State) (c : Session), s.VALID = 1 → s.session = c → u.VALID = 1 → u.session = c →
    lengthAdmitted s.params.MAX_LEN s.DIN.length = true → lengthAdmitted u.params.MAX_LEN s.DIN.length = true →
    ∃ t, exec .encrypt s = .next t ∧ (u.DIN = t.DOUT → ∃ v, exec .decrypt u = .next v ∧ v.DOUT = s.DIN)

/-- R88: for all byte sequences and all valid keys, nonces and variants, decrypting on a fresh core what a fresh core
encrypted gives the message back. -/
def Obligations.RoundTripFromFreshCores : Prop :=
  ∀ (s : State) (r : Variant), s.KEYBUF.length = 32 → numberRound r ∈ s.params.NUMBER_ROUND_DOMAIN →
    lengthAdmitted s.params.MAX_LEN s.DIN.length = true →
    ∃ t u, exec (.encryptFresh r) s = .next t ∧ exec (.decryptFresh r) { t with DIN := t.DOUT } = .next u ∧
      u.DOUT = s.DIN

/-- R87, R120: two operations, the first on a multiple of 64 bytes, give the same bytes and leave the same session as
one operation on the concatenation. -/
def Obligations.OperationsJoinAtBlockBoundaries : Prop :=
  ∀ (s : State) (c : Session) (m1 m2 : List Byte), s.VALID = 1 → s.session = c → m1.length % 64 = 0 →
    lengthAdmitted s.params.MAX_LEN (m1 ++ m2).length = true →
    ∃ t u v, exec .encrypt { s with DIN := m1 } = .next t ∧ exec .encrypt { t with DIN := m2 } = .next u ∧
      exec .encrypt { s with DIN := m1 ++ m2 } = .next v ∧ v.DOUT = t.DOUT ++ u.DOUT ∧
      v.VALID = u.VALID ∧ v.session = u.session

/-- R72, R44: the keystream does not depend on the data: two inputs of one length leave the same session, and their
outputs differ exactly where they do. -/
def Obligations.KeystreamIsIndependentOfTheData : Prop :=
  ∀ (s : State) (c : Session) (d1 d2 : List Byte), s.VALID = 1 → s.session = c → d1.length = d2.length →
    lengthAdmitted s.params.MAX_LEN d1.length = true →
    ∃ t1 t2, exec .encrypt { s with DIN := d1 } = .next t1 ∧ exec .encrypt { s with DIN := d2 } = .next t2 ∧
      t1.VALID = t2.VALID ∧ t1.session = t2.session ∧ List.zipWith xor8 t1.DOUT t2.DOUT = List.zipWith xor8 d1 d2

/-- R90, R98: two cores built with one key, nonce and variant encrypt one message to one ciphertext and hold one
session, whatever either held before. -/
def Obligations.FreshEncryptionIsDeterminedByItsOperands : Prop :=
  ∀ (s1 s2 : State) (r : Variant), s1.KEYBUF = s2.KEYBUF → s1.NONCE_IN = s2.NONCE_IN → s1.DIN = s2.DIN →
    s1.KEYBUF.length = 32 →
    (∀ s ∈ [s1, s2], numberRound r ∈ s.params.NUMBER_ROUND_DOMAIN ∧
      lengthAdmitted s.params.MAX_LEN s.DIN.length = true) →
    ∃ t1 t2, exec (.encryptFresh r) s1 = .next t1 ∧ exec (.encryptFresh r) s2 = .next t2 ∧
      t1.DOUT = t2.DOUT ∧ t1.VALID = t2.VALID ∧ t1.session = t2.session

/-! ## Pseudo-operations (spec/30_encoding.md R57) -/

/-- R57: with a key of 32 bytes the pseudo-operations complete (the round count and the length being what R5's
parameters admit), as BUILD.r and then ENCRYPT or DECRYPT on the state it leaves. -/
def Obligations.FreshOperationsBuildAndThenStream : Prop :=
  ∀ (s : State), s.KEYBUF.length = 32 → lengthAdmitted s.params.MAX_LEN s.DIN.length = true →
    ∀ p ∈ [(Variant.r8, Instr.build8), (.r12, .build12), (.r20, .build20)],
      numberRound p.1 ∈ s.params.NUMBER_ROUND_DOMAIN →
      ∃ t u v, exec p.2 s = .next t ∧ t.RESULT = some .ok ∧ exec .encrypt t = .next u ∧ exec .decrypt t = .next v ∧
        exec (.encryptFresh p.1) s = .next u ∧ exec (.decryptFresh p.1) s = .next v

/-- R57: a pseudo-operation is its expansion: the two commands of the program it stands for, run by two steps, have
exactly its outcome. That this is so for every key length and every earlier core, so that after a failed BUILD the
second half still runs on the earlier core, or the whole is refused where there is none, is the model's reading
(assumption 10, DEDUCED). -/
def Obligations.FreshOperationsAreTheirExpansions : Prop :=
  ∀ (s : State) (r : Variant) (key : List Byte) (nonce : Word64) (m : List Byte) (rest : List Request), s.seq = [] →
    (s.host = encryptFreshProgram r key nonce m ++ rest →
      andThen (step s) step =
        exec (.encryptFresh r) { s with host := rest, KEYBUF := key, NONCE_IN := nonce, DIN := m }) ∧
    (s.host = decryptFreshProgram r key nonce m ++ rest →
      andThen (step s) step =
        exec (.decryptFresh r) { s with host := rest, KEYBUF := key, NONCE_IN := nonce, DIN := m })

/-! ## Invariants -/

/-- R17, R21, R23: every step keeps the invariant, from every state that meets it: whenever a core exists, S is INIT of
its key, nonce and counter and its round count is one that NUMBER_ROUND_DOMAIN offers, and ERR is the code of the last
BUILD's result. The open parameters themselves never change (R5). -/
def Obligations.StepKeepsTheInvariant : Prop :=
  ∀ s t : State, Inv s → step s = .next t → Inv t ∧ t.params = s.params

/-- The state after reset meets the invariant and is one between host operations, whatever the open parameters are; the
defaults are no bound and 8, 12, 20. -/
def Obligations.ResetMeetsTheInvariant : Prop :=
  (∀ p : Params, Inv (State.resetWith p) ∧ HostLevel (State.resetWith p)) ∧
  State.reset = State.resetWith { MAX_LEN := none, NUMBER_ROUND_DOMAIN := [8, 12, 20] }

/-- R24, R13: between host operations no transient array holds a value, and no move of the host changes that. -/
def Obligations.HostMovesLeaveNoTransients : Prop :=
  ∀ s t : State, HostLevel s → step s = .next t → HostLevel t

/-- R19: after any step that keeps or makes a core, the state's words are laid out as the rule's table says: the
constants, and the two halves of the counter and of the nonce. -/
def Obligations.StateLayoutHoldsAfterEveryStep : Prop :=
  ∀ (s t : State) (c : Session), Inv s → step s = .next t → t.VALID = 1 → t.session = c →
    c.S[0] = 0x61707865 ∧ c.S[1] = 0x3320646e ∧ c.S[2] = 0x79622d32 ∧ c.S[3] = 0x6b206574 ∧
    (∀ j : Fin 8, c.S[4 + j.val] =
      le32dec c.KEY[4 * j.val] c.KEY[4 * j.val + 1] c.KEY[4 * j.val + 2] c.KEY[4 * j.val + 3]) ∧
    c.S[12] = lo32 c.CTR ∧ c.S[13] = hi32 c.CTR ∧ c.S[14] = lo32 c.NONCE ∧ c.S[15] = hi32 c.NONCE

/-- R18: the counter only moves forward by whole blocks: an instruction that builds no core leaves a core whose counter
is the old one plus some number of blocks, and S is then INIT of it if it was before. -/
def Obligations.CounterMovesByWholeBlocks : Prop :=
  ∀ (i : Instr) (s t : State) (c : Session), isBuild i = false → exec i s = .next t → s.VALID = 1 → s.session = c →
    ∃ (q : Nat) (c' : Session), t.VALID = 1 ∧ t.session = c' ∧ c'.CTR = c.CTR + BitVec.ofNat 64 q ∧
      (Derived c → Derived c') ∧
      (i = .ksb → q = 1) ∧ (∀ chunk, i = .xorc chunk → q = 1) ∧
      (i = .encrypt ∨ i = .decrypt → q = (s.DIN.length + 63) / 64) ∧
      (i ≠ .ksb → (∀ chunk, i ≠ .xorc chunk) → i ≠ .encrypt → i ≠ .decrypt → q = 0 ∧ c' = c)
end

