-- ==== Sys2Proof/Laws/State.lean ====
section
/-! SUPPORT. What each named update of the state does to each field: one lemma per field and update, so that no later
proof unfolds a record update. -/

namespace Sys2Proof.Machine

/-! `latch`: what the host presents on the operand ports. -/

@[simp] theorem State.latch_params (s : State) (k : List Byte) (n : Word64) (d : List Byte) : (s.latch k n d).params = s.params := rfl
@[simp] theorem State.latch_VALID (s : State) (k : List Byte) (n : Word64) (d : List Byte) : (s.latch k n d).VALID = s.VALID := rfl
@[simp] theorem State.latch_session (s : State) (k : List Byte) (n : Word64) (d : List Byte) : (s.latch k n d).session = s.session := rfl
@[simp] theorem State.latch_ERR (s : State) (k : List Byte) (n : Word64) (d : List Byte) : (s.latch k n d).ERR = s.ERR := rfl
@[simp] theorem State.latch_RESULT (s : State) (k : List Byte) (n : Word64) (d : List Byte) : (s.latch k n d).RESULT = s.RESULT := rfl
@[simp] theorem State.latch_KEYBUF (s : State) (k : List Byte) (n : Word64) (d : List Byte) : (s.latch k n d).KEYBUF = k := rfl
@[simp] theorem State.latch_NONCE_IN (s : State) (k : List Byte) (n : Word64) (d : List Byte) : (s.latch k n d).NONCE_IN = n := rfl
@[simp] theorem State.latch_DIN (s : State) (k : List Byte) (n : Word64) (d : List Byte) : (s.latch k n d).DIN = d := rfl
@[simp] theorem State.latch_DOUT (s : State) (k : List Byte) (n : Word64) (d : List Byte) : (s.latch k n d).DOUT = s.DOUT := rfl
@[simp] theorem State.latch_X (s : State) (k : List Byte) (n : Word64) (d : List Byte) : (s.latch k n d).X = s.X := rfl
@[simp] theorem State.latch_T (s : State) (k : List Byte) (n : Word64) (d : List Byte) : (s.latch k n d).T = s.T := rfl
@[simp] theorem State.latch_W (s : State) (k : List Byte) (n : Word64) (d : List Byte) : (s.latch k n d).W = s.W := rfl
@[simp] theorem State.latch_OUT (s : State) (k : List Byte) (n : Word64) (d : List Byte) : (s.latch k n d).OUT = s.OUT := rfl
@[simp] theorem State.latch_KS (s : State) (k : List Byte) (n : Word64) (d : List Byte) : (s.latch k n d).KS = s.KS := rfl
@[simp] theorem State.latch_host (s : State) (k : List Byte) (n : Word64) (d : List Byte) : (s.latch k n d).host = s.host := rfl
@[simp] theorem State.latch_seq (s : State) (k : List Byte) (n : Word64) (d : List Byte) : (s.latch k n d).seq = s.seq := rfl
@[simp] theorem State.latch_reads (s : State) (k : List Byte) (n : Word64) (d : List Byte) : (s.latch k n d).reads = s.reads := rfl

/-! `raiseInvalidKeySize`: the one error. -/

@[simp] theorem State.raiseInvalidKeySize_params (s : State) : s.raiseInvalidKeySize.params = s.params := rfl
@[simp] theorem State.raiseInvalidKeySize_VALID (s : State) : s.raiseInvalidKeySize.VALID = s.VALID := rfl
@[simp] theorem State.raiseInvalidKeySize_session (s : State) : s.raiseInvalidKeySize.session = s.session := rfl
@[simp] theorem State.raiseInvalidKeySize_ERR (s : State) : s.raiseInvalidKeySize.ERR = 1 := rfl
@[simp] theorem State.raiseInvalidKeySize_RESULT (s : State) : s.raiseInvalidKeySize.RESULT = some .invalidKeySize := rfl
@[simp] theorem State.raiseInvalidKeySize_KEYBUF (s : State) : s.raiseInvalidKeySize.KEYBUF = s.KEYBUF := rfl
@[simp] theorem State.raiseInvalidKeySize_NONCE_IN (s : State) : s.raiseInvalidKeySize.NONCE_IN = s.NONCE_IN := rfl
@[simp] theorem State.raiseInvalidKeySize_DIN (s : State) : s.raiseInvalidKeySize.DIN = s.DIN := rfl
@[simp] theorem State.raiseInvalidKeySize_DOUT (s : State) : s.raiseInvalidKeySize.DOUT = s.DOUT := rfl
@[simp] theorem State.raiseInvalidKeySize_X (s : State) : s.raiseInvalidKeySize.X = s.X := rfl
@[simp] theorem State.raiseInvalidKeySize_T (s : State) : s.raiseInvalidKeySize.T = s.T := rfl
@[simp] theorem State.raiseInvalidKeySize_W (s : State) : s.raiseInvalidKeySize.W = s.W := rfl
@[simp] theorem State.raiseInvalidKeySize_OUT (s : State) : s.raiseInvalidKeySize.OUT = s.OUT := rfl
@[simp] theorem State.raiseInvalidKeySize_KS (s : State) : s.raiseInvalidKeySize.KS = s.KS := rfl
@[simp] theorem State.raiseInvalidKeySize_host (s : State) : s.raiseInvalidKeySize.host = s.host := rfl
@[simp] theorem State.raiseInvalidKeySize_seq (s : State) : s.raiseInvalidKeySize.seq = s.seq := rfl
@[simp] theorem State.raiseInvalidKeySize_reads (s : State) : s.raiseInvalidKeySize.reads = s.reads := rfl

/-! `install`: a core comes into being. -/

@[simp] theorem State.install_params (s : State) (c : Session) : (s.install c).params = s.params := rfl
@[simp] theorem State.install_VALID (s : State) (c : Session) : (s.install c).VALID = 1 := rfl
@[simp] theorem State.install_session (s : State) (c : Session) : (s.install c).session = c := rfl
@[simp] theorem State.install_ERR (s : State) (c : Session) : (s.install c).ERR = 0 := rfl
@[simp] theorem State.install_RESULT (s : State) (c : Session) : (s.install c).RESULT = some .ok := rfl
@[simp] theorem State.install_KEYBUF (s : State) (c : Session) : (s.install c).KEYBUF = s.KEYBUF := rfl
@[simp] theorem State.install_NONCE_IN (s : State) (c : Session) : (s.install c).NONCE_IN = s.NONCE_IN := rfl
@[simp] theorem State.install_DIN (s : State) (c : Session) : (s.install c).DIN = s.DIN := rfl
@[simp] theorem State.install_DOUT (s : State) (c : Session) : (s.install c).DOUT = s.DOUT := rfl
@[simp] theorem State.install_X (s : State) (c : Session) : (s.install c).X = s.X := rfl
@[simp] theorem State.install_T (s : State) (c : Session) : (s.install c).T = s.T := rfl
@[simp] theorem State.install_W (s : State) (c : Session) : (s.install c).W = s.W := rfl
@[simp] theorem State.install_OUT (s : State) (c : Session) : (s.install c).OUT = s.OUT := rfl
@[simp] theorem State.install_KS (s : State) (c : Session) : (s.install c).KS = s.KS := rfl
@[simp] theorem State.install_host (s : State) (c : Session) : (s.install c).host = s.host := rfl
@[simp] theorem State.install_seq (s : State) (c : Session) : (s.install c).seq = s.seq := rfl
@[simp] theorem State.install_reads (s : State) (c : Session) : (s.install c).reads = s.reads := rfl

/-! `putX`: the operand array of the Round Engine is written. -/

@[simp] theorem State.putX_params (s : State) (x : Words) : (s.putX x).params = s.params := rfl
@[simp] theorem State.putX_VALID (s : State) (x : Words) : (s.putX x).VALID = s.VALID := rfl
@[simp] theorem State.putX_session (s : State) (x : Words) : (s.putX x).session = s.session := rfl
@[simp] theorem State.putX_ERR (s : State) (x : Words) : (s.putX x).ERR = s.ERR := rfl
@[simp] theorem State.putX_RESULT (s : State) (x : Words) : (s.putX x).RESULT = s.RESULT := rfl
@[simp] theorem State.putX_KEYBUF (s : State) (x : Words) : (s.putX x).KEYBUF = s.KEYBUF := rfl
@[simp] theorem State.putX_NONCE_IN (s : State) (x : Words) : (s.putX x).NONCE_IN = s.NONCE_IN := rfl
@[simp] theorem State.putX_DIN (s : State) (x : Words) : (s.putX x).DIN = s.DIN := rfl
@[simp] theorem State.putX_DOUT (s : State) (x : Words) : (s.putX x).DOUT = s.DOUT := rfl
@[simp] theorem State.putX_X (s : State) (x : Words) : (s.putX x).X = x := rfl
@[simp] theorem State.putX_T (s : State) (x : Words) : (s.putX x).T = s.T := rfl
@[simp] theorem State.putX_W (s : State) (x : Words) : (s.putX x).W = s.W := rfl
@[simp] theorem State.putX_OUT (s : State) (x : Words) : (s.putX x).OUT = s.OUT := rfl
@[simp] theorem State.putX_KS (s : State) (x : Words) : (s.putX x).KS = s.KS := rfl
@[simp] theorem State.putX_host (s : State) (x : Words) : (s.putX x).host = s.host := rfl
@[simp] theorem State.putX_seq (s : State) (x : Words) : (s.putX x).seq = s.seq := rfl
@[simp] theorem State.putX_reads (s : State) (x : Words) : (s.putX x).reads = s.reads := rfl

/-! `putDOUT`: the output sequence is written. -/

@[simp] theorem State.putDOUT_params (s : State) (out : List Byte) : (s.putDOUT out).params = s.params := rfl
@[simp] theorem State.putDOUT_VALID (s : State) (out : List Byte) : (s.putDOUT out).VALID = s.VALID := rfl
@[simp] theorem State.putDOUT_session (s : State) (out : List Byte) : (s.putDOUT out).session = s.session := rfl
@[simp] theorem State.putDOUT_ERR (s : State) (out : List Byte) : (s.putDOUT out).ERR = s.ERR := rfl
@[simp] theorem State.putDOUT_RESULT (s : State) (out : List Byte) : (s.putDOUT out).RESULT = s.RESULT := rfl
@[simp] theorem State.putDOUT_KEYBUF (s : State) (out : List Byte) : (s.putDOUT out).KEYBUF = s.KEYBUF := rfl
@[simp] theorem State.putDOUT_NONCE_IN (s : State) (out : List Byte) : (s.putDOUT out).NONCE_IN = s.NONCE_IN := rfl
@[simp] theorem State.putDOUT_DIN (s : State) (out : List Byte) : (s.putDOUT out).DIN = s.DIN := rfl
@[simp] theorem State.putDOUT_DOUT (s : State) (out : List Byte) : (s.putDOUT out).DOUT = out := rfl
@[simp] theorem State.putDOUT_X (s : State) (out : List Byte) : (s.putDOUT out).X = s.X := rfl
@[simp] theorem State.putDOUT_T (s : State) (out : List Byte) : (s.putDOUT out).T = s.T := rfl
@[simp] theorem State.putDOUT_W (s : State) (out : List Byte) : (s.putDOUT out).W = s.W := rfl
@[simp] theorem State.putDOUT_OUT (s : State) (out : List Byte) : (s.putDOUT out).OUT = s.OUT := rfl
@[simp] theorem State.putDOUT_KS (s : State) (out : List Byte) : (s.putDOUT out).KS = s.KS := rfl
@[simp] theorem State.putDOUT_host (s : State) (out : List Byte) : (s.putDOUT out).host = s.host := rfl
@[simp] theorem State.putDOUT_seq (s : State) (out : List Byte) : (s.putDOUT out).seq = s.seq := rfl
@[simp] theorem State.putDOUT_reads (s : State) (out : List Byte) : (s.putDOUT out).reads = s.reads := rfl

/-! `finish`: the end of an ENCRYPT or DECRYPT. -/

@[simp] theorem State.finish_params (s : State) (r : Session × List Byte) : (s.finish r).params = s.params := rfl
@[simp] theorem State.finish_VALID (s : State) (r : Session × List Byte) : (s.finish r).VALID = s.VALID := rfl
@[simp] theorem State.finish_session (s : State) (r : Session × List Byte) : (s.finish r).session = r.1 := rfl
@[simp] theorem State.finish_ERR (s : State) (r : Session × List Byte) : (s.finish r).ERR = s.ERR := rfl
@[simp] theorem State.finish_RESULT (s : State) (r : Session × List Byte) : (s.finish r).RESULT = s.RESULT := rfl
@[simp] theorem State.finish_KEYBUF (s : State) (r : Session × List Byte) : (s.finish r).KEYBUF = s.KEYBUF := rfl
@[simp] theorem State.finish_NONCE_IN (s : State) (r : Session × List Byte) : (s.finish r).NONCE_IN = s.NONCE_IN := rfl
@[simp] theorem State.finish_DIN (s : State) (r : Session × List Byte) : (s.finish r).DIN = s.DIN := rfl
@[simp] theorem State.finish_DOUT (s : State) (r : Session × List Byte) : (s.finish r).DOUT = r.2 := rfl
@[simp] theorem State.finish_X (s : State) (r : Session × List Byte) : (s.finish r).X = s.X := rfl
@[simp] theorem State.finish_T (s : State) (r : Session × List Byte) : (s.finish r).T = none := rfl
@[simp] theorem State.finish_W (s : State) (r : Session × List Byte) : (s.finish r).W = none := rfl
@[simp] theorem State.finish_OUT (s : State) (r : Session × List Byte) : (s.finish r).OUT = none := rfl
@[simp] theorem State.finish_KS (s : State) (r : Session × List Byte) : (s.finish r).KS = none := rfl
@[simp] theorem State.finish_host (s : State) (r : Session × List Byte) : (s.finish r).host = s.host := rfl
@[simp] theorem State.finish_seq (s : State) (r : Session × List Byte) : (s.finish r).seq = s.seq := rfl
@[simp] theorem State.finish_reads (s : State) (r : Session × List Byte) : (s.finish r).reads = s.reads := rfl

/-! `putBlock`: one block is produced. -/

@[simp] theorem State.putBlock_params (s : State) (c : Session) : (s.putBlock c).params = s.params := rfl
@[simp] theorem State.putBlock_VALID (s : State) (c : Session) : (s.putBlock c).VALID = s.VALID := rfl
@[simp] theorem State.putBlock_session (s : State) (c : Session) : (s.putBlock c).session = advance c := rfl
@[simp] theorem State.putBlock_ERR (s : State) (c : Session) : (s.putBlock c).ERR = s.ERR := rfl
@[simp] theorem State.putBlock_RESULT (s : State) (c : Session) : (s.putBlock c).RESULT = s.RESULT := rfl
@[simp] theorem State.putBlock_KEYBUF (s : State) (c : Session) : (s.putBlock c).KEYBUF = s.KEYBUF := rfl
@[simp] theorem State.putBlock_NONCE_IN (s : State) (c : Session) : (s.putBlock c).NONCE_IN = s.NONCE_IN := rfl
@[simp] theorem State.putBlock_DIN (s : State) (c : Session) : (s.putBlock c).DIN = s.DIN := rfl
@[simp] theorem State.putBlock_DOUT (s : State) (c : Session) : (s.putBlock c).DOUT = s.DOUT := rfl
@[simp] theorem State.putBlock_X (s : State) (c : Session) : (s.putBlock c).X = s.X := rfl
@[simp] theorem State.putBlock_T (s : State) (c : Session) : (s.putBlock c).T = s.T := rfl
@[simp] theorem State.putBlock_W (s : State) (c : Session) : (s.putBlock c).W = some (mixedCopy c) := rfl
@[simp] theorem State.putBlock_OUT (s : State) (c : Session) : (s.putBlock c).OUT = some (blockWords c) := rfl
@[simp] theorem State.putBlock_KS (s : State) (c : Session) : (s.putBlock c).KS = some (keystreamBlock c) := rfl
@[simp] theorem State.putBlock_host (s : State) (c : Session) : (s.putBlock c).host = s.host := rfl
@[simp] theorem State.putBlock_seq (s : State) (c : Session) : (s.putBlock c).seq = s.seq := rfl
@[simp] theorem State.putBlock_reads (s : State) (c : Session) : (s.putBlock c).reads = s.reads := rfl

/-! `resetCore`: RESET. -/

@[simp] theorem State.resetCore_params (s : State) : s.resetCore.params = s.params := rfl
@[simp] theorem State.resetCore_VALID (s : State) : s.resetCore.VALID = 0 := rfl
@[simp] theorem State.resetCore_session (s : State) : s.resetCore.session = s.session := rfl
@[simp] theorem State.resetCore_ERR (s : State) : s.resetCore.ERR = 0 := rfl
@[simp] theorem State.resetCore_RESULT (s : State) : s.resetCore.RESULT = none := rfl
@[simp] theorem State.resetCore_KEYBUF (s : State) : s.resetCore.KEYBUF = [] := rfl
@[simp] theorem State.resetCore_NONCE_IN (s : State) : s.resetCore.NONCE_IN = 0 := rfl
@[simp] theorem State.resetCore_DIN (s : State) : s.resetCore.DIN = [] := rfl
@[simp] theorem State.resetCore_DOUT (s : State) : s.resetCore.DOUT = [] := rfl
@[simp] theorem State.resetCore_X (s : State) : s.resetCore.X = Vector.replicate 16 0 := rfl
@[simp] theorem State.resetCore_T (s : State) : s.resetCore.T = none := rfl
@[simp] theorem State.resetCore_W (s : State) : s.resetCore.W = none := rfl
@[simp] theorem State.resetCore_OUT (s : State) : s.resetCore.OUT = none := rfl
@[simp] theorem State.resetCore_KS (s : State) : s.resetCore.KS = none := rfl
@[simp] theorem State.resetCore_host (s : State) : s.resetCore.host = s.host := rfl
@[simp] theorem State.resetCore_seq (s : State) : s.resetCore.seq = [] := rfl
@[simp] theorem State.resetCore_reads (s : State) : s.resetCore.reads = s.reads := rfl

/-! `afterRead`: a read of an observation port. -/

@[simp] theorem State.afterRead_params (s : State) (p : Port) : (s.afterRead p).params = s.params := by cases p <;> rfl
@[simp] theorem State.afterRead_VALID (s : State) (p : Port) : (s.afterRead p).VALID = s.VALID := by cases p <;> rfl
@[simp] theorem State.afterRead_session (s : State) (p : Port) : (s.afterRead p).session = s.session := by cases p <;> rfl
@[simp] theorem State.afterRead_ERR (s : State) (p : Port) : (s.afterRead p).ERR = s.ERR := by cases p <;> rfl
@[simp] theorem State.afterRead_RESULT (s : State) (p : Port) : (s.afterRead p).RESULT = s.RESULT := by cases p <;> rfl
@[simp] theorem State.afterRead_KEYBUF (s : State) (p : Port) : (s.afterRead p).KEYBUF = s.KEYBUF := by cases p <;> rfl
@[simp] theorem State.afterRead_NONCE_IN (s : State) (p : Port) : (s.afterRead p).NONCE_IN = s.NONCE_IN := by cases p <;> rfl
@[simp] theorem State.afterRead_DIN (s : State) (p : Port) : (s.afterRead p).DIN = s.DIN := by cases p <;> rfl
@[simp] theorem State.afterRead_DOUT (s : State) (p : Port) : (s.afterRead p).DOUT = s.DOUT := by cases p <;> rfl
@[simp] theorem State.afterRead_X (s : State) (p : Port) : (s.afterRead p).X = s.X := by cases p <;> rfl
@[simp] theorem State.afterRead_T (s : State) (p : Port) : (s.afterRead p).T = s.T := by cases p <;> rfl
@[simp] theorem State.afterRead_W (s : State) (p : Port) : (s.afterRead p).W = s.W := by cases p <;> rfl
@[simp] theorem State.afterRead_OUT (s : State) (p : Port) : (s.afterRead p).OUT = s.OUT := by cases p <;> rfl
@[simp] theorem State.afterRead_KS (s : State) (p : Port) : (s.afterRead p).KS = s.KS := by cases p <;> rfl
@[simp] theorem State.afterRead_host (s : State) (p : Port) : (s.afterRead p).host = s.host := by cases p <;> rfl
@[simp] theorem State.afterRead_seq (s : State) (p : Port) : (s.afterRead p).seq = s.seq := by cases p <;> rfl

/-- `VALID` is one bit. -/
theorem State.VALID_eq_zero_or_one (s : State) : s.VALID = 0 ∨ s.VALID = 1 :=
  (by decide : ∀ v : BitVec 1, v = 0 ∨ v = 1) s.VALID

end Sys2Proof.Machine
end

