-- ==== Sys2Proof/Laws/Ops.lean ====
section
/-! SUPPORT. One lemma per shared operation: all it can do. -/

namespace Sys2Proof.Machine

open Sys2Proof.Safety

/-- A Round Engine procedure answers a next state in every state: it writes its operand array and nothing else. -/
@[simp] theorem onArray_eq (f : Words → Words) (s : State) : onArray f s = .next (s.putX (f s.X)) := rfl

@[simp] theorem State.putX_putX (s : State) (x y : Words) : (s.putX x).putX y = s.putX y := rfl

/-- With a core, an admitted operation is its body. -/
theorem withCore_of_valid {f : Session → Result} {s : State} (h : s.VALID = 1) : withCore f s = f s.session := by
  simp [withCore, h]

/-- Without a core, an operation that needs one is refused. -/
theorem withCore_of_invalid {f : Session → Result} {s : State} (h : s.VALID = 0) : withCore f s = .refused .noCore := by
  simp [withCore, h]

/-- An admitted operation that answers a next state had a core. -/
theorem withCore_next {f : Session → Result} {s t : State} (h : withCore f s = .next t) :
    s.VALID = 1 ∧ f s.session = .next t := by
  unfold withCore at h
  split at h
  · exact ⟨by assumption, h⟩
  · cases h

/-- A sequence that answers a next state did so in both its parts. -/
theorem andThen_next {r : Result} {f : State → Result} {t : State} (h : andThen r f = .next t) :
    ∃ u, r = .next u ∧ f u = .next t := by
  cases r with
  | next u => exact ⟨u, rfl, h⟩
  | fault e => cases h
  | refused e => cases h

@[simp] theorem andThen_of_next (u : State) (f : State → Result) : andThen (.next u) f = f u := rfl

/-- The key operand is there exactly when the key has 32 bytes. -/
theorem keyOperand_isSome (l : List Byte) : (keyOperand l).isSome = true ↔ l.length = 32 := by
  unfold keyOperand
  split <;> simp_all

theorem keyOperand_eq_none (l : List Byte) : keyOperand l = none ↔ l.length ≠ 32 := by
  unfold keyOperand
  split <;> simp_all

/-- The key operand keeps the order of the bytes. -/
theorem keyOperand_toList (key : Key) : keyOperand key.toList = some key := by
  simp only [keyOperand, Vector.length_toList, dite_true, Option.some.injEq]
  exact Vector.toArray_inj.mp (by simp [Vector.toList])

@[simp] theorem roundOffered_eq_true (domain : List Nat) (n : Nat) : roundOffered domain n = true ↔ n ∈ domain := by
  simp [roundOffered]

@[simp] theorem variantCount_val (r : Variant) : (variantCount r).val = numberRound r := rfl

/-- BUILD of a count that is offered either raises the one error or installs a fresh session; of another it is refused.
-/
theorem build_cases (n : RoundCount) (s : State) :
    (n.val ∈ s.params.NUMBER_ROUND_DOMAIN ∧ s.KEYBUF.length ≠ 32 ∧ build n s = .next s.raiseInvalidKeySize) ∨
      (∃ key : Key, n.val ∈ s.params.NUMBER_ROUND_DOMAIN ∧ keyOperand s.KEYBUF = some key ∧
        build n s = .next (s.install (freshSession n key s.NONCE_IN))) ∨
      (n.val ∉ s.params.NUMBER_ROUND_DOMAIN ∧ build n s = .refused (.roundCountNotOffered n.val)) := by
  unfold build
  split
  · rename_i hd
    have hd := (roundOffered_eq_true _ _).mp hd
    cases h : keyOperand s.KEYBUF with
    | none => exact .inl ⟨hd, (keyOperand_eq_none _).mp h, rfl⟩
    | some key => exact .inr (.inl ⟨key, hd, rfl, rfl⟩)
  · rename_i hd
    exact .inr (.inr ⟨fun h => hd ((roundOffered_eq_true _ _).mpr h), rfl⟩)

/-- BUILD that answers a next state: the count was offered, and the one error was raised or a fresh session installed.
-/
theorem build_next {n : RoundCount} {s t : State} (h : build n s = .next t) :
    n.val ∈ s.params.NUMBER_ROUND_DOMAIN ∧
      ((s.KEYBUF.length ≠ 32 ∧ t = s.raiseInvalidKeySize) ∨
        ∃ key : Key, keyOperand s.KEYBUF = some key ∧ t = s.install (freshSession n key s.NONCE_IN)) := by
  rcases build_cases n s with ⟨hd, hk, hb⟩ | ⟨key, hd, hk, hb⟩ | ⟨-, hb⟩ <;> rw [hb] at h <;> cases h
  · exact ⟨hd, .inl ⟨hk, rfl⟩⟩
  · exact ⟨hd, .inr ⟨key, hk, rfl⟩⟩

/-- BUILD by its variant is the shared operation. -/
@[simp] theorem execBuild_eq (r : Variant) (s : State) : execBuild r s = build (variantCount r) s := by
  cases r <;> rfl

@[simp] theorem combine_zero (c : Session) (din : List Byte) : combine 0 c din = (c, []) := rfl

theorem combine_succ (q : Nat) (c : Session) (din : List Byte) :
    combine (q + 1) c din =
      ((combine q (advance c) (afterChunk din)).1,
        combineChunk (firstChunk din) (keystreamBlock c) ++ (combine q (advance c) (afterChunk din)).2) := rfl

/-- No input, no chunk. -/
@[simp] theorem chunkCount_zero : chunkCount 0 = 0 := rfl

/-- After the first chunk of a non-empty input, one chunk fewer is left. -/
theorem chunkCount_of_pos {din : List Byte} (h : din ≠ []) :
    chunkCount din.length = chunkCount (afterChunk din).length + 1 := by
  have : 0 < din.length := List.length_pos_iff.mpr h
  simp [chunkCount, afterChunk]
  omega

@[simp] theorem combineChunk_length (chunk : List Byte) (ks : Block) :
    (combineChunk chunk ks).length = min chunk.length 64 := by
  simp [combineChunk]

/-- The output of enough chunks has the length of the input. -/
theorem combine_length (c : Session) (din : List Byte) : (combine (chunkCount din.length) c din).2.length = din.length := by
  generalize hq : chunkCount din.length = q
  induction q generalizing c din with
  | zero =>
    simp only [chunkCount] at hq
    simp only [combine_zero, List.length_nil]
    omega
  | succ q ih =>
    have hne : din ≠ [] := by rintro rfl; simp at hq
    have hrest := ih (advance c) (afterChunk din) (by rw [chunkCount_of_pos hne] at hq; omega)
    rw [combine_succ, List.length_append, hrest, combineChunk_length]
    simp only [firstChunk, afterChunk, List.length_take, List.length_drop]
    omega

/-- The session after `q` chunks does not depend on the data. -/
theorem combine_session (q : Nat) (c : Session) (din : List Byte) : (combine q c din).1 = (advance)^[q] c := by
  induction q generalizing c din with
  | zero => rfl
  | succ q ih => simp [combine_succ, ih, Function.iterate_succ]

/-- A block leaves the key, the nonce and the round count. -/
@[simp] theorem advance_KEY (c : Session) : (advance c).KEY = c.KEY := rfl
@[simp] theorem advance_NONCE (c : Session) : (advance c).NONCE = c.NONCE := rfl
@[simp] theorem advance_ROUNDS (c : Session) : (advance c).ROUNDS = c.ROUNDS := rfl
@[simp] theorem advance_CTR (c : Session) : (advance c).CTR = c.CTR + 1 := rfl
@[simp] theorem advance_S (c : Session) : (advance c).S = initState c.KEY c.NONCE (c.CTR + 1) := rfl

/-- Blocks leave the key, the nonce and the round count, and count the counter up. -/
theorem advance_iterate (q : Nat) (c : Session) :
    ((advance)^[q] c).KEY = c.KEY ∧ ((advance)^[q] c).NONCE = c.NONCE ∧ ((advance)^[q] c).ROUNDS = c.ROUNDS ∧
      ((advance)^[q] c).CTR = c.CTR + BitVec.ofNat 64 q := by
  induction q generalizing c with
  | zero => simp
  | succ q ih =>
    obtain ⟨hk, hn, hr, hc⟩ := ih (advance c)
    refine ⟨hk, hn, hr, ?_⟩
    rw [Function.iterate_succ, Function.comp_apply, hc, advance_CTR, BitVec.add_assoc]
    congr 1
    apply BitVec.eq_of_toNat_eq
    simp [Nat.add_comm]

/-- Blocks keep a derived state derived (spec/10_state.md R21). -/
theorem advance_iterate_derived (q : Nat) (c : Session) (h : Derived c) : Derived ((advance)^[q] c) := by
  induction q generalizing c with
  | zero => exact h
  | succ q ih => exact ih _ rfl

/-- ENCRYPT and DECRYPT, when they answer a next state: the core was there and the state is this one. -/
theorem streamCombine_next {s t : State} (h : streamCombine s = .next t) :
    s.VALID = 1 ∧ lengthAdmitted s.params.MAX_LEN s.DIN.length = true ∧
      t = s.finish (combine (chunkCount s.DIN.length) s.session s.DIN) := by
  obtain ⟨hv, h⟩ := withCore_next h
  split at h
  · exact ⟨hv, by assumption, by simpa using h.symm⟩
  · cases h

/-- With a core and an admitted length ENCRYPT and DECRYPT answer this state. -/
theorem streamCombine_of_valid {s : State} (hv : s.VALID = 1)
    (hl : lengthAdmitted s.params.MAX_LEN s.DIN.length = true) :
    streamCombine s = .next (s.finish (combine (chunkCount s.DIN.length) s.session s.DIN)) := by
  rw [streamCombine, withCore_of_valid hv, if_pos hl]

end Sys2Proof.Machine
end

