-- ==== Sys2Proof/Laws/Exec.lean ====
section
/-! SUPPORT. What an instruction and a step can do to the session, the status and the transient arrays, said once. -/

namespace Sys2Proof.Machine

open Sys2Proof.Safety

/-- What an instruction that builds nothing and answers a next state has done to the core, the status and the result: it
has produced `q` blocks, of a core that was there, and nothing else. -/
structure Effect (s t : State) (q : Nat) : Prop where
  /-- The parameters stay. -/
  params : t.params = s.params
  /-- `VALID` stays. -/
  valid : t.VALID = s.VALID
  /-- `ERR` stays. -/
  err : t.ERR = s.ERR
  /-- The result stays. -/
  result : t.RESULT = s.RESULT
  /-- The registers moved by `q` blocks. -/
  session : t.session = (advance)^[q] s.session
  /-- Blocks come from a constructed core. -/
  built : q ≠ 0 → s.VALID = 1

/-- What a BUILD can have done, and a pseudo-operation's BUILD before its `q` blocks. -/
inductive BuildEffect (s t : State) : Prop where
  /-- The key had the wrong length; `q` blocks of an earlier core may follow. -/
  | failed (q : Nat) (hp : t.params = s.params) (hk : s.KEYBUF.length ≠ 32) (hv : t.VALID = s.VALID) (he : t.ERR = 1)
      (hr : t.RESULT = some .invalidKeySize) (hs : t.session = (advance)^[q] s.session) (hq : q ≠ 0 → s.VALID = 1)
  /-- A core was constructed, with a round count that is offered; `q` blocks of it may follow. -/
  | built (n : RoundCount) (key : Key) (q : Nat) (hp : t.params = s.params)
      (hd : n.val ∈ s.params.NUMBER_ROUND_DOMAIN) (hk : keyOperand s.KEYBUF = some key) (hv : t.VALID = 1)
      (he : t.ERR = 0) (hr : t.RESULT = some .ok) (hs : t.session = (advance)^[q] (freshSession n key s.NONCE_IN))

/-- A next state with the same core is the effect of no block. -/
theorem Effect.refl {s t : State} (hp : t.params = s.params) (hv : t.VALID = s.VALID) (he : t.ERR = s.ERR)
    (hr : t.RESULT = s.RESULT) (hs : t.session = s.session) : Effect s t 0 :=
  ⟨hp, hv, he, hr, hs, fun h => absurd rfl h⟩

theorem effect_of_array {x : Words} {s t : State} (h : (.next (s.putX x) : Result) = .next t) : ∃ q, Effect s t q := by
  cases h
  exact ⟨0, .refl rfl rfl rfl rfl rfl⟩

theorem effect_of_stream {s t : State} (h : streamCombine s = .next t) : ∃ q, Effect s t q := by
  obtain ⟨hv, -, rfl⟩ := streamCombine_next h
  exact ⟨chunkCount s.DIN.length, rfl, rfl, rfl, rfl, by simp [combine_session], fun _ => hv⟩

/-- Every instruction but a BUILD. -/
theorem exec_effect {i : Instr} {s t : State} (hi : isBuild i = false) (h : exec i s = .next t) :
    ∃ q, Effect s t q := by
  cases i with
  | build8 | build12 | build20 | encryptFresh _ | decryptFresh _ => cases hi
  | encrypt | decrypt => exact effect_of_stream h
  | qr a b c d =>
    simp only [exec, execQr, onArray_eq] at h
    split at h
    · exact effect_of_array h
    · cases h
  | sched0 | sched1 | sched2 | sched3 | sched4 | sched5 | sched6 | sched7 | cround | dground | dround =>
    simp only [exec, execSched0, execSched1, execSched2, execSched3, execSched4, execSched5, execSched6, execSched7,
      execCround, execDground, execDround, onArray_eq] at h
    exact effect_of_array h
  | rounds n =>
    simp only [exec, execRounds, onArray_eq] at h
    split at h
    · exact effect_of_array h
    · cases h
  | init key nonce blk =>
    simp only [exec, execInit, Host.Outcome.next.injEq] at h
    subst h
    exact ⟨0, Effect.refl rfl rfl rfl rfl rfl⟩
  | ksb =>
    simp only [exec, execKsb] at h
    obtain ⟨hv, h⟩ := withCore_next h
    cases h
    exact ⟨1, rfl, rfl, rfl, rfl, rfl, fun _ => hv⟩
  | xorc chunk =>
    simp only [exec, execXorc] at h
    split at h
    · obtain ⟨hv, h⟩ := withCore_next h
      cases h
      exact ⟨1, rfl, rfl, rfl, rfl, rfl, fun _ => hv⟩
    · cases h

theorem buildEffect_of_build {n : RoundCount} {s t : State} (h : build n s = .next t) : BuildEffect s t := by
  obtain ⟨hd, ⟨hk, rfl⟩ | ⟨key, hk, rfl⟩⟩ := build_next h
  · exact .failed 0 rfl hk rfl rfl rfl rfl (fun h => absurd rfl h)
  · exact .built n key 0 rfl hd hk rfl rfl rfl rfl

theorem buildEffect_of_fresh {r : Variant} {s t : State} (h : andThen (execBuild r s) streamCombine = .next t) :
    BuildEffect s t := by
  obtain ⟨u, hu, h⟩ := andThen_next h
  rw [execBuild_eq] at hu
  obtain ⟨hv, -, rfl⟩ := streamCombine_next h
  obtain ⟨hd, ⟨hk, rfl⟩ | ⟨key, hk, rfl⟩⟩ := build_next hu
  · exact .failed (chunkCount s.DIN.length) rfl hk rfl rfl rfl (by simp [combine_session]) (fun _ => hv)
  · exact .built (variantCount r) key (chunkCount s.DIN.length) rfl hd hk rfl rfl rfl (by simp [combine_session])

/-- Every BUILD and every pseudo-operation. -/
theorem exec_buildEffect {i : Instr} {s t : State} (hi : isBuild i = true) (h : exec i s = .next t) :
    BuildEffect s t := by
  cases i with
  | build8 | build12 | build20 => exact buildEffect_of_build h
  | encryptFresh r | decryptFresh r => exact buildEffect_of_fresh h
  | encrypt | decrypt | qr _ _ _ _ | sched0 | sched1 | sched2 | sched3 | sched4 | sched5 | sched6 | sched7
  | init _ _ _ | cround | dground | dround | rounds _ | ksb | xorc _ => cases hi

/-- No instruction writes the parameters (spec/00_scope.md R5). -/
theorem exec_params {i : Instr} {s t : State} (h : exec i s = .next t) : t.params = s.params := by
  cases hi : isBuild i with
  | false => exact (exec_effect hi h).choose_spec.params
  | true => cases exec_buildEffect hi h <;> assumption

/-- What a step that answers a next state did: nothing, a RESET or an observation, or one instruction. -/
theorem step_cases {s t : State} (h : step s = .next t) :
    (fetch s = .idle ∧ t = s) ∨ (fetch s = .done t) ∨ ∃ i u, fetch s = .run i u ∧ exec i u = .next t := by
  unfold step at h
  split at h
  · exact .inl ⟨by assumption, by simpa using h.symm⟩
  · simp only [Host.Outcome.next.injEq] at h
    subst h
    exact .inr (.inl (by assumption))
  · exact .inr (.inr ⟨_, _, by assumption, h⟩)
  · cases h

end Sys2Proof.Machine
end

