-- ==== Sys2Proof/Laws/PerInstr.lean ====
section
/-! SUPPORT. Statements about every instruction, one lemma per constructor. -/

namespace Sys2Proof.Laws.WordShape

/-- The word of an instruction, when it has one, has the number of bits the opcode table gives its format, and it has
none exactly when the table gives no pattern (spec/30_encoding.md R55, R58). -/
def Statement (i : Instr) : Prop := (encode i).map Code.bits = i.format.bits

theorem build8 : Statement .build8 := rfl
theorem build12 : Statement .build12 := rfl
theorem build20 : Statement .build20 := rfl
theorem encrypt : Statement .encrypt := rfl
theorem decrypt : Statement .decrypt := rfl
theorem qr (a b c d : Index) : Statement (.qr a b c d) := rfl
theorem sched0 : Statement .sched0 := rfl
theorem sched1 : Statement .sched1 := rfl
theorem sched2 : Statement .sched2 := rfl
theorem sched3 : Statement .sched3 := rfl
theorem sched4 : Statement .sched4 := rfl
theorem sched5 : Statement .sched5 := rfl
theorem sched6 : Statement .sched6 := rfl
theorem sched7 : Statement .sched7 := rfl
theorem init (key : Key) (nonce blk : Word64) : Statement (.init key nonce blk) := rfl
theorem cround : Statement .cround := rfl
theorem dground : Statement .dground := rfl
theorem dround : Statement .dround := rfl
theorem rounds (n : Nat) : Statement (.rounds n) := rfl
theorem ksb : Statement .ksb := rfl
theorem xorc (chunk : List Byte) : Statement (.xorc chunk) := rfl
theorem encryptFresh (r : Variant) : Statement (.encryptFresh r) := rfl
theorem decryptFresh (r : Variant) : Statement (.decryptFresh r) := rfl

end Sys2Proof.Laws.WordShape
end

