-- ==== Sys2Proof/Laws/RoundEngine.lean ====
section
/-! SUPPORT. The words of a quarter round, and the words of INIT and of a serialised block, one lemma each. -/

namespace Sys2Proof.Machine

/-- A word whose index is none of the four is left (spec/41_round_engine.md R66). -/
theorem quarterRound_other {n : Nat} (x : Vector Word n) {a b c d : Fin n} {i : Nat} (hi : i < n) (ha : i ≠ a)
    (hb : i ≠ b) (hc : i ≠ c) (hd : i ≠ d) : (quarterRound x a b c d)[i] = x[i] := by
  simp [quarterRound, Ne.symm ha, Ne.symm hb, Ne.symm hc, Ne.symm hd]

/-- A byte of a serialised block (spec/42_keystream_producer.md R78). -/
theorem serialize_getElem (out : Words) {i : Nat} (hi : i < 64) :
    (serialize out)[i] = (le32enc out[i / 4])[i % 4] := by
  simp [serialize]

/-- A word of the feed-forward sum (R75). -/
theorem feedForward_getElem (x y : Words) {i : Nat} (hi : i < 16) : (feedForward x y)[i] = add32 x[i] y[i] := by
  simp [feedForward]

@[simp] theorem initState_12 (key : Key) (nonce blk : Word64) : (initState key nonce blk)[12] = lo32 blk := rfl
@[simp] theorem initState_13 (key : Key) (nonce blk : Word64) : (initState key nonce blk)[13] = hi32 blk := rfl
@[simp] theorem initState_14 (key : Key) (nonce blk : Word64) : (initState key nonce blk)[14] = lo32 nonce := rfl
@[simp] theorem initState_15 (key : Key) (nonce blk : Word64) : (initState key nonce blk)[15] = hi32 nonce := rfl

/-- Double rounds add up (R71). -/
theorem doubleRounds_add (j k : Nat) (x : Words) : doubleRounds (j + k) x = doubleRounds k (doubleRounds j x) := by
  induction j generalizing x with
  | zero => simp [doubleRounds]
  | succ j ih => rw [Nat.succ_add, doubleRounds, ih, doubleRounds]

end Sys2Proof.Machine
end

