-- ==== Sys2Proof/Tests/Slice0.lean ====
section
/-! SUPPORT. Small tests: expected values are those of spec/95_test_vectors.md and of the rules' worked examples, never
the model's own. Then a witness for every statement that has hypotheses. -/

namespace Sys2Proof.Tests

open Sys2Proof.Machine Sys2Proof.Safety

/-! ## States the tests start from -/

/-- 32 zero key bytes. -/
def zeroKey : Key := Vector.replicate 32 0

/-- The key bytes 00, 01, ..., 1f. -/
def countKey : Key := Vector.ofFn fun i : Fin 32 => BitVec.ofNat 8 i.val

/-- A core with a zero key and the given variant, nonce and counter. -/
def coreAt (r : Variant) (nonce ctr : Word64) : State :=
  { State.reset with VALID := 1, session := ⟨zeroKey, nonce, variantCount r, ctr, initState zeroKey nonce ctr⟩ }

/-- The state after reset with a word array to work on. -/
def working (x : Words) : State := State.reset.putX x

/-- The state after reset with operands on the ports. -/
def ports (key : List Byte) (nonce : Word64) (din : List Byte) : State := State.reset.latch key nonce din

/-- The array an engine instruction leaves. -/
def arrayAfter (i : Instr) (x : Words) : Option Words := (nextOf (exec i (working x))).map State.X

/-- The output an instruction leaves. -/
def outputAfter (i : Instr) (s : State) : Option (List Byte) := (nextOf (exec i s)).map State.DOUT

/-- The core an instruction leaves constructed. -/
def coreAfter (i : Instr) (s : State) : Option Session :=
  ((nextOf (exec i s)).filter fun t => t.VALID == 1).map State.session

/-- "Hello Crypto". -/
def hello : List Byte := [0x48, 0x65, 0x6c, 0x6c, 0x6f, 0x20, 0x43, 0x72, 0x79, 0x70, 0x74, 0x6f]

/-- The ciphertext of "Hello Crypto" on the zero core, 20 rounds (spec/95_test_vectors.md 1.2). -/
def helloCipher : List Byte := [0x3e, 0xdd, 0x8c, 0xc1, 0xcf, 0xd1, 0x7e, 0xe2, 0x39, 0x2d, 0x1e, 0x8a]

/-- INIT of a zero key, nonce 0, block 0 (spec/95_test_vectors.md 2.2). -/
def array0 : Words := #v[0x61707865, 0x3320646e, 0x79622d32, 0x6b206574, 0x00000000, 0x00000000, 0x00000000, 0x00000000, 0x00000000, 0x00000000, 0x00000000, 0x00000000, 0x00000000, 0x00000000, 0x00000000, 0x00000000]

/-- The array after schedule entry 0 (spec/95_test_vectors.md 2.4). -/
def array1 : Words := #v[0xb7877feb, 0x3320646e, 0x79622d32, 0x6b206574, 0x4a7d5c86, 0x00000000, 0x00000000, 0x00000000, 0x5a83fd3f, 0x00000000, 0x00000000, 0x00000000, 0xe21e9bcf, 0x00000000, 0x00000000, 0x00000000]

/-- The array after schedule entry 1 (spec/95_test_vectors.md 2.4). -/
def array2 : Words := #v[0xb7877feb, 0x16526ab4, 0x79622d32, 0x6b206574, 0x4a7d5c86, 0xfae0ea21, 0x00000000, 0x00000000, 0x5a83fd3f, 0xa0c7c792, 0x00000000, 0x00000000, 0xe21e9bcf, 0x3c599472, 0x00000000, 0x00000000]

/-- The array after schedule entry 2 (spec/95_test_vectors.md 2.4). -/
def array3 : Words := #v[0xb7877feb, 0x16526ab4, 0xa0f85005, 0x6b206574, 0x4a7d5c86, 0xfae0ea21, 0x66e11e68, 0x00000000, 0x5a83fd3f, 0xa0c7c792, 0xf75be0ef, 0x00000000, 0xe21e9bcf, 0x3c599472, 0xca29678d, 0x00000000]

/-- The array after schedule entry 3 (spec/95_test_vectors.md 2.4). -/
def array4 : Words := #v[0xb7877feb, 0x16526ab4, 0xa0f85005, 0xb1d26bcb, 0x4a7d5c86, 0xfae0ea21, 0x66e11e68, 0xe3a851a6, 0x5a83fd3f, 0xa0c7c792, 0xf75be0ef, 0x0b7556f4, 0xe21e9bcf, 0x3c599472, 0xca29678d, 0xa600ebd4]

/-- The array after schedule entry 4 (spec/95_test_vectors.md 2.4). -/
def array5 : Words := #v[0xe45fd249, 0x16526ab4, 0xa0f85005, 0xb1d26bcb, 0x4a7d5c86, 0x86bf4098, 0x66e11e68, 0xe3a851a6, 0x5a83fd3f, 0xa0c7c792, 0x00fa16bc, 0x0b7556f4, 0xe21e9bcf, 0x3c599472, 0xca29678d, 0x87c62165]

/-- The array after schedule entry 5 (spec/95_test_vectors.md 2.4). -/
def array6 : Words := #v[0xe45fd249, 0x1bb820a6, 0xa0f85005, 0xb1d26bcb, 0x4a7d5c86, 0x86bf4098, 0x460b500a, 0xe3a851a6, 0x5a83fd3f, 0xa0c7c792, 0x00fa16bc, 0x8a08812a, 0x6bbf8b09, 0x3c599472, 0xca29678d, 0x87c62165]

/-- The array after schedule entry 6 (spec/95_test_vectors.md 2.4). -/
def array7 : Words := #v[0xe45fd249, 0x1bb820a6, 0xe31a88ea, 0xb1d26bcb, 0x4a7d5c86, 0x86bf4098, 0x460b500a, 0xfa169886, 0x538dca0e, 0xa0c7c792, 0x00fa16bc, 0x8a08812a, 0x6bbf8b09, 0xc33013d6, 0xca29678d, 0x87c62165]

/-- The array after schedule entry 7 (spec/95_test_vectors.md 2.4). -/
def array8 : Words := #v[0xe45fd249, 0x1bb820a6, 0xe31a88ea, 0xe667a9fe, 0x2a3bf673, 0x86bf4098, 0x460b500a, 0xfa169886, 0x538dca0e, 0x0c439641, 0x00fa16bc, 0x8a08812a, 0x6bbf8b09, 0xc33013d6, 0xbb9f9849, 0x87c62165]

/-! ## Well-formedness: an ill-formed term for each check, which the check refuses -/

theorem test_wellFormed_equal_indices : ¬ WellFormed (.qr 0 4 4 8) := by decide
theorem test_wellFormed_odd_rounds : ¬ WellFormed (.rounds 7) := by decide
theorem test_wellFormed_zero_rounds : ¬ WellFormed (.rounds 0) := by decide
theorem test_wellFormed_empty_chunk : ¬ WellFormed (.xorc []) := by decide
theorem test_wellFormed_long_chunk : ¬ WellFormed (.xorc (List.replicate 65 0)) := by decide

/-! ## Decoding: words written out bit by bit (spec/30_encoding.md R47 to R52, spec/95_test_vectors.md 2.11) -/

theorem test_decode_build8 : decodeCommand 0b00010000 = .ok .build8 := by decide
theorem test_decode_build12 : decodeCommand 0b00010001 = .ok .build12 := by decide
theorem test_decode_build20 : decodeCommand 0b00010010 = .ok .build20 := by decide
theorem test_decode_encrypt : decodeCommand 0b00100000 = .ok .encrypt := by decide
theorem test_decode_decrypt : decodeCommand 0b00110000 = .ok .decrypt := by decide
theorem test_decode_sched0 : decodeEntry 0b0000010010001100 = .ok .sched0 := by decide
theorem test_decode_sched1 : decodeEntry 0b0001010110011101 = .ok .sched1 := by decide
theorem test_decode_sched2 : decodeEntry 0b0010011010101110 = .ok .sched2 := by decide
theorem test_decode_sched3 : decodeEntry 0b0011011110111111 = .ok .sched3 := by decide
theorem test_decode_sched4 : decodeEntry 0b0000010110101111 = .ok .sched4 := by decide
theorem test_decode_sched5 : decodeEntry 0b0001011010111100 = .ok .sched5 := by decide
theorem test_decode_sched6 : decodeEntry 0b0010011110001101 = .ok .sched6 := by decide
theorem test_decode_sched7 : decodeEntry 0b0011010010011110 = .ok .sched7 := by decide
theorem test_decode_qr : decodeEntry 0b0000000100100011 = .ok (.qr 0 1 2 3) := by decide
theorem test_decode_variant_three : decodeCommand 0b00010011 = .error (.reservedVariant 0x13) := by decide
theorem test_decode_z_field : decodeCommand 0b00010100 = .error (.reservedZ 0x14) := by decide
theorem test_decode_v_of_encrypt : decodeCommand 0b00100001 = .error (.reservedV 0x21) := by decide
theorem test_decode_op_zero : decodeCommand 0b00000001 = .error (.reservedOp 0x01) := by decide
theorem test_decode_equal_indices : decodeEntry 0b0000010001001000 = .error (.equalIndices 0x0448) := by decide
theorem test_decode_table_word : decodeTableWord 16 0x349E = some .sched7 := by decide

/-! ## Primitives (spec/95_test_vectors.md 2.1) -/

theorem test_rotl32_7 : rotl32 0x12345678 7 = 0x1a2b3c09 := by decide
theorem test_rotl32_16 : rotl32 0x12345678 16 = 0x56781234 := by decide
theorem test_le32enc : le32enc 0xade0b876 = #v[0x76, 0xb8, 0xe0, 0xad] := by decide
theorem test_hi32 : hi32 0x0000000100000002 = 1 := by decide
theorem test_add64_carry : add64 0x00000000ffffffff 1 = 0x0000000100000000 := by decide

/-! ## Instructions -/

-- spec/95_test_vectors.md 2.10: ChaCha8 with the key 00..1f.
theorem test_build8 :
    coreAfter .build8 (ports countKey.toList 0x0706050403020100 []) =
      some ⟨countKey, 0x0706050403020100, ⟨8, rfl⟩, 0, #v[0x61707865, 0x3320646e, 0x79622d32, 0x6b206574, 0x03020100, 0x07060504, 0x0b0a0908, 0x0f0e0d0c, 0x13121110, 0x17161514, 0x1b1a1918, 0x1f1e1d1c, 0x00000000, 0x00000000, 0x03020100, 0x07060504]⟩ := by
  decide +kernel

-- spec/95_test_vectors.md 2.10: 31 bytes, the nonce is not stored, only ERR and the result are written.
theorem test_build12_wrong_length :
    nextOf (exec .build12 (ports (List.replicate 31 0) 5 [])) =
      some { ports (List.replicate 31 0) 5 [] with ERR := 1, RESULT := some .invalidKeySize } := by
  decide +kernel

-- spec/95_test_vectors.md 2.10: BUILD.12 over a live core with counter 3 and a latched error.
theorem test_build12_replaces :
    coreAfter .build12 { coreAt .r20 0 3 with KEYBUF := zeroKey.toList, NONCE_IN := 1, ERR := 1 } =
      some ⟨zeroKey, 1, ⟨12, rfl⟩, 0, #v[0x61707865, 0x3320646e, 0x79622d32, 0x6b206574, 0x00000000, 0x00000000, 0x00000000, 0x00000000, 0x00000000, 0x00000000, 0x00000000, 0x00000000, 0x00000000, 0x00000000, 0x00000001, 0x00000000]⟩ := by
  decide +kernel

theorem test_build20_status :
    (nextOf (exec .build20 { ports zeroKey.toList 0 [] with ERR := 1 })).map (fun t => (t.VALID, t.ERR, t.RESULT)) =
      some (1, 0, some .ok) := by
  decide +kernel

-- spec/95_test_vectors.md 2.10: a failed BUILD leaves the live core.
theorem test_build20_failure_keeps_core :
    coreAfter .build20 { coreAt .r20 0 3 with KEYBUF := List.replicate 33 0, NONCE_IN := 9 } =
      some (coreAt .r20 0 3).session := by
  decide +kernel

theorem test_encrypt_hello : outputAfter .encrypt { coreAt .r20 0 0 with DIN := hello } = some helloCipher := by
  decide +kernel

-- spec/95_test_vectors.md 1.3 and P2: 65 bytes take two blocks, the last output byte is the first of block 1.
theorem test_encrypt_65 :
    (nextOf (exec .encrypt { coreAt .r8 0 0 with DIN := List.replicate 65 0 })).map
      (fun t => (t.DOUT.drop 63, t.session.CTR)) = some ([0x42, 0xd2], 2) := by
  decide +kernel

-- spec/95_test_vectors.md P5: on one core the counter has moved on.
theorem test_decrypt_same_core :
    outputAfter .decrypt { coreAt .r20 0 1 with DIN := helloCipher } =
      some [0xa1, 0xda, 0x6b, 0x7f, 0x9a, 0x80, 0x46, 0x98, 0xa1, 0x97, 0x89, 0xf6] := by
  decide +kernel

theorem test_decrypt_without_core : refusalOf (exec .decrypt (ports [] 0 [0])) = some .noCore := by decide

-- spec/95_test_vectors.md 1.1, on the first four words of a 16-word array.
theorem test_qr_vector :
    arrayAfter (.qr 0 1 2 3) #v[0x11111111, 0x01020304, 0x9b8d6f43, 0x01234567, 0x00000000, 0x00000000, 0x00000000, 0x00000000, 0x00000000, 0x00000000, 0x00000000, 0x00000000, 0x00000000, 0x00000000, 0x00000000, 0x00000007] =
      some #v[0xea2a92f4, 0xcb1cf8ce, 0x4581472e, 0x5881c4bb, 0x00000000, 0x00000000, 0x00000000, 0x00000000, 0x00000000, 0x00000000, 0x00000000, 0x00000000, 0x00000000, 0x00000000, 0x00000000, 0x00000007] := by
  decide +kernel

theorem test_qr_equal_indices : refusalOf (exec (.qr 0 4 4 8) (working array0)) = some .equalIndices := by decide

theorem test_sched0 : arrayAfter .sched0 array0 = some array1 := by decide +kernel
theorem test_sched1 : arrayAfter .sched1 array1 = some array2 := by decide +kernel
theorem test_sched2 : arrayAfter .sched2 array2 = some array3 := by decide +kernel
theorem test_sched3 : arrayAfter .sched3 array3 = some array4 := by decide +kernel
theorem test_sched4 : arrayAfter .sched4 array4 = some array5 := by decide +kernel
theorem test_sched5 : arrayAfter .sched5 array5 = some array6 := by decide +kernel
theorem test_sched6 : arrayAfter .sched6 array6 = some array7 := by decide +kernel
theorem test_sched7 : arrayAfter .sched7 array7 = some array8 := by decide +kernel

-- spec/95_test_vectors.md 2.3: entry 0x16BC on an array that shows every byte.
theorem test_sched5_other_array :
    arrayAfter .sched5 #v[0x61707865, 0x3320646e, 0x79622d32, 0x6b206574, 0x03020100, 0x07060504, 0x0b0a0908, 0x0f0e0d0c, 0x13121110, 0x17161514, 0x1b1a1918, 0x1f1e1d1c, 0x00000000, 0x00000000, 0x03020100, 0x07060504] =
      some #v[0x61707865, 0x234f55ef, 0x79622d32, 0x6b206574, 0x03020100, 0x07060504, 0x92647691, 0x0f0e0d0c, 0x13121110, 0x17161514, 0x1b1a1918, 0xc6002094, 0x396bc54e, 0x00000000, 0x03020100, 0x07060504] := by
  decide +kernel

-- spec/95_test_vectors.md 2.2, second array.
theorem test_init_bytes :
    (nextOf (exec (.init countKey 0x0706050403020100 0x0000000100000002) State.reset)).bind State.T =
      some #v[0x61707865, 0x3320646e, 0x79622d32, 0x6b206574, 0x03020100, 0x07060504, 0x0b0a0908, 0x0f0e0d0c, 0x13121110, 0x17161514, 0x1b1a1918, 0x1f1e1d1c, 0x00000002, 0x00000001, 0x03020100, 0x07060504] := by
  decide +kernel

theorem test_cround : arrayAfter .cround array0 = some array4 := by decide +kernel
theorem test_dground : arrayAfter .dground array4 = some array8 := by decide +kernel
theorem test_dround : arrayAfter .dround array0 = some array8 := by decide +kernel

-- spec/95_test_vectors.md 2.5.
theorem test_rounds_8 :
    arrayAfter (.rounds 8) array0 = some #v[0xce7e87d9, 0xa31ffb1b, 0x6f562e4d, 0x3684a3ab, 0xc30e842c, 0x3b7f9ace, 0x88e11b18, 0x1e1a71ef, 0x72e14c98, 0x416f21b9, 0x6753449f, 0x19566d45, 0xa3424a31, 0x01b086da, 0xb8fd7b38, 0x42fe0c0e] := by
  decide +kernel

theorem test_rounds_20 :
    arrayAfter (.rounds 20) array0 = some #v[0x4c704011, 0x5d1d8d32, 0x6c08300e, 0xbd9d20df, 0xb819d2bd, 0x1aed8da0, 0xccef36a8, 0xc70d778b, 0x7c5941da, 0x8d485751, 0x3fe02477, 0x374ad8b8, 0xf4b8436a, 0x1ca11815, 0x69b687c3, 0x8665eeb2] := by
  decide +kernel

-- spec/95_test_vectors.md 2.7: the second block of the zero core; byte 48 is where a rejected feed-forward would differ.
theorem test_ksb_block1 :
    (nextOf (exec .ksb (coreAt .r20 0 1))).map (fun t => (t.KS.map fun ks => (ks.toList.drop 48).take 4)) =
      some (some [0x31, 0xed, 0x1f, 0x28]) := by
  decide +kernel

-- spec/95_test_vectors.md 2.8: the wrap.
theorem test_ksb_wrap :
    coreAfter .ksb (coreAt .r20 0 0xffffffffffffffff) = some (coreAt .r20 0 0).session := by
  decide +kernel

-- spec/43_stream_combiner.md R83, worked example.
theorem test_xorc_complement :
    outputAfter (.xorc [0xff, 0xff, 0xff, 0xff, 0xff]) (coreAt .r20 0 0) = some [0x89, 0x47, 0x1f, 0x52, 0x5f] := by
  decide +kernel

theorem test_xorc_empty_chunk : refusalOf (exec (.xorc []) (coreAt .r20 0 0)) = some (.chunkLength 0) := by decide

-- spec/95_test_vectors.md P6.
theorem test_encryptFresh :
    outputAfter (.encryptFresh .r12) (ports zeroKey.toList 1 [0x61, 0x62, 0x63]) = some [0x05, 0xda, 0xde] := by
  decide +kernel

theorem test_decryptFresh :
    outputAfter (.decryptFresh .r12) (ports zeroKey.toList 1 [0x05, 0xda, 0xde]) = some [0x61, 0x62, 0x63] := by
  decide +kernel

/-! ## Steps -/

-- The first instruction after reset, as the host places it: a BUILD with the empty key port fails with InvalidKeySize.
theorem test_step_fetchWord_build : (nextOf (step (State.reset.withFetchWord 8 0x12))).map State.ERR = some 1 := by
  decide +kernel

-- A schedule entry placed for the first step, on the array of spec/95_test_vectors.md P4.
theorem test_step_fetchWord_sched0 :
    (nextOf (step ((working array0).withFetchWord 16 0x048C))).map State.X = some array1 := by
  decide +kernel

-- spec/95_test_vectors.md P4: the sequencer is given the array, then its first entry.
theorem test_step_array_then_entry :
    (nextOf (andThen (step { State.reset with seq := [.array array0, .entry 0x048C] }) step)).map State.X =
      some array1 := by
  decide +kernel

-- spec/92_eei_decisions.md D16: an implementation with MAX_LEN = 11 refuses the command ENCRYPT on 12 bytes.
theorem test_step_over_max_len :
    refusalOf (step ({ coreAt .r20 0 0 with DIN := hello, params := ⟨some 11, [8, 12, 20]⟩ }.withFetchWord 8 0x20)) =
      some (.inputTooLong 12) := by
  decide +kernel

-- spec/92_eei_decisions.md D15: an implementation that exposes only 20 rounds has no BUILD.8.
theorem test_build8_not_offered :
    refusalOf (exec .build8 { ports zeroKey.toList 0 [] with params := ⟨none, [20]⟩ }) =
      some (.roundCountNotOffered 8) := by
  decide +kernel

theorem test_step_reserved_word :
    refusalOf (step (State.reset.withFetchWord 8 0x13)) = some (.undecodable (.reservedVariant 0x13)) := by
  decide

-- spec/10_state.md R27 and R29: the port of CTR can be read at any time, and no register changes.
theorem test_step_ctr_unbuilt :
    (nextOf (step { State.reset with host := [.observe .ctr] })).map (fun t => (t.VALID, t.ERR, t.host)) =
      some (0, 0, []) := by
  decide

theorem test_step_idle : nextOf (step State.reset) = some State.reset := by decide

/-! ## Witnesses: for every statement that has hypotheses, a concrete state and operands that meet all of them, clause
by clause where it has several -/

theorem witness_Rotl32MovesEveryBit : (0 < 1 ∧ 1 < 32) ∧ 0 < 31 ∧ 31 < 32 := by decide

-- The last byte and the last word of KS.
theorem witness_MemoryPrimitivesReadBack : 63 < 64 ∧ 60 + 4 ≤ 64 ∧ (60 ≤ 63 ∧ 63 < 60 + 4) := by decide

theorem witness_ReservedCommandWordsAreRefused :
    ∀ c ∈ ([0x00, 0x0F, 0x13, 0x14, 0x21, 0x31, 0x40, 0xFF] : List (BitVec 8)),
      let s := { State.reset with host := [.command c [] 0 []] }
      s.seq = [] ∧ s.host = .command c [] 0 [] :: [] ∧ c ∉ [0x10, 0x11, 0x12, 0x20, 0x30] := by
  decide

theorem witness_ScheduleEntryFieldsDecode :
    distinctIndices 15 14 13 12 = true ∧ distinctIndices 0 0 0 0 = false := by
  decide

theorem witness_DecodeOfEncodeIsTheInstruction :
    (WellFormed (.qr 0 4 8 12) ∧ encode (.qr 0 4 8 12) = some (.qri16 0x048C)) ∧
    (WellFormed .build20 ∧ encode .build20 = some (.cmd8 0x12)) ∧
    ((0, 1, 2, 3) : Index × Index × Index × Index) ∉
      ([(0, 4, 8, 12), (1, 5, 9, 13), (2, 6, 10, 14), (3, 7, 11, 15), (0, 5, 10, 15), (1, 6, 11, 12), (2, 7, 8, 13),
        (3, 4, 9, 14)] : List (Index × Index × Index × Index)) := by
  decide

theorem witness_EncodeOfDecodeIsTheWord :
    decode (.cmd8 0x30) = .ok .decrypt ∧ decode (.qri16 0xFEDC) = .ok (.qr 15 14 13 12) := by
  decide

theorem witness_StepRunsThePresentedCommand :
    let s := { State.reset with host := [.command 0x12 zeroKey.toList 0 [], .reset] }
    s.seq = [] ∧ s.host = .command 0x12 zeroKey.toList 0 [] :: [.reset] ∧ decodeCommand 0x12 = .ok .build20 :=
  ⟨rfl, rfl, by decide⟩

theorem witness_StepRunsTheSequencerItem :
    ({ working array0 with seq := [.entry 0x048C] }.seq = .entry 0x048C :: [] ∧ decodeEntry 0x048C = .ok .sched0) ∧
    ({ working array0 with seq := [.entry 0x0448] }.seq = .entry 0x0448 :: [] ∧
      decodeEntry 0x0448 = .error (.equalIndices 0x0448)) ∧
    { working array0 with seq := [.call .dround] }.seq = .call .dround :: [] ∧
    { State.reset with seq := [.array array0] }.seq = .array array0 :: [] :=
  ⟨⟨rfl, by decide⟩, ⟨rfl, by decide⟩, rfl, rfl⟩

theorem witness_StepRunsTheFetchWord :
    decodeTableWord 8 0x20 = some .encrypt ∧ decodeTableWord 16 0x349E = some .sched7 := by
  decide

theorem witness_StepWithNothingPresentedIsIdle : State.reset.seq = [] ∧ State.reset.host = [] := ⟨rfl, rfl⟩

theorem witness_ResetLeavesNoCore :
    let s := { coreAt .r20 0 3 with ERR := 1, host := [.reset] }
    s.seq = [] ∧ s.host = .reset :: [] :=
  ⟨rfl, rfl⟩

-- A machine just reset, and one with another key, nonce, round count, counter and state behind VALID = 0.
theorem witness_RegistersOfNoCoreCannotMatter :
    SameButUnbuilt State.reset { State.reset with session := (coreAt .r20 7 9).session } :=
  ⟨rfl, fun h => absurd h (by decide)⟩

-- VALID without a core, CTR with one, CTR without one.
theorem witness_ObservationHasNoSideEffect :
    (let s := { State.reset with host := [.observe .valid] }
     s.seq = [] ∧ s.host = .observe .valid :: [] ∧ (Port.valid ≠ .ctr ∨ s.VALID = 1)) ∧
    (let s := { coreAt .r8 0 5 with host := [.observe .ctr] }
     s.seq = [] ∧ s.host = .observe .ctr :: [] ∧ (Port.ctr ≠ .ctr ∨ s.VALID = 1) ∧ s.VALID = 1) ∧
    (let s := { State.reset with host := [.observe .ctr] }
     s.seq = [] ∧ s.host = .observe .ctr :: [] ∧ Port.ctr = .ctr ∧ s.VALID = 0) :=
  ⟨⟨rfl, rfl, .inl (by decide)⟩, ⟨rfl, rfl, .inr rfl, rfl⟩, rfl, rfl, rfl, rfl⟩

theorem witness_BuildConstructsTheCore :
    (ports countKey.toList 5 []).KEYBUF = countKey.toList ∧
      (Instr.build12, Variant.r12) ∈ [(Instr.build8, Variant.r8), (.build12, .r12), (.build20, .r20)] ∧
      numberRound .r12 ∈ (ports countKey.toList 5 []).params.NUMBER_ROUND_DOMAIN :=
  ⟨rfl, by decide, by decide⟩

theorem witness_BuildRejectsOtherKeyLengths :
    (ports [] 0 []).KEYBUF.length ≠ 32 ∧ (ports (List.replicate 31 0) 0 []).KEYBUF.length ≠ 32 ∧
      (ports (List.replicate 33 0) 0 []).KEYBUF.length ≠ 32 ∧
      (Instr.build20, Variant.r20) ∈ [(Instr.build8, Variant.r8), (.build12, .r12), (.build20, .r20)] ∧
      numberRound .r20 ∈ (ports [] 0 []).params.NUMBER_ROUND_DOMAIN := by
  decide

-- No BUILD; a BUILD with 32 bytes; a BUILD with 31.
theorem witness_InvalidKeySizeOnlyFromBuild :
    (isBuild .ksb = false ∧ ∃ t, exec .ksb (coreAt .r20 0 0) = .next t) ∧
    (isBuild .build20 = true ∧ ∃ t, exec .build20 (ports zeroKey.toList 0 []) = .next t) ∧
    (isBuild .build20 = true ∧ Instr.format .build20 = .cmd8 ∧ (ports (List.replicate 31 0) 0 []).KEYBUF.length ≠ 32 ∧
      ∃ t, exec .build20 (ports (List.replicate 31 0) 0 []) = .next t) :=
  ⟨⟨rfl, _, rfl⟩, ⟨rfl, _, rfl⟩, rfl, rfl, by decide, _, rfl⟩

theorem witness_ValidIsSetByBuildAlone :
    (isBuild .ksb = false ∧ ∃ t, exec .ksb (coreAt .r20 0 0) = .next t) ∧
    (isBuild .build20 = true ∧ (ports zeroKey.toList 0 []).KEYBUF.length = 32 ∧
      ∃ t, exec .build20 (ports zeroKey.toList 0 []) = .next t) ∧
    (isBuild .build20 = true ∧ (ports [] 0 []).KEYBUF.length ≠ 32 ∧ ∃ t, exec .build20 (ports [] 0 []) = .next t) :=
  ⟨⟨rfl, _, rfl⟩, ⟨rfl, rfl, _, rfl⟩, rfl, by decide, _, rfl⟩

-- An instruction that builds nothing; a BUILD with the wrong length on a live core.
theorem witness_KeyNonceRoundsAreImmutable :
    (∃ t, exec .ksb (coreAt .r20 7 0) = .next t ∧ (coreAt .r20 7 0).VALID = 1 ∧ isBuild .ksb = false) ∧
    ∃ t, exec .build8 (coreAt .r20 7 0) = .next t ∧ (coreAt .r20 7 0).VALID = 1 ∧
      (coreAt .r20 7 0).KEYBUF.length ≠ 32 :=
  ⟨⟨_, rfl, rfl, rfl⟩, _, rfl, rfl, by decide⟩

-- The boundary indices of R65: words 11 and 14 stand beside 12 and 13.
theorem witness_ConsecutiveStatesDifferInTheCounterOnly :
    ((11 : Index) ≠ 12 ∧ (11 : Index) ≠ 13) ∧ (14 : Index) ≠ 12 ∧ (14 : Index) ≠ 13 := by
  decide

theorem witness_QuarterRoundWritesItsFourWords : distinctIndices 15 0 7 8 = true := by decide

theorem witness_QuarterRoundIsTheInPlaceListing : [(0 : Fin 4), 1, 2, 3].Nodup := by decide

theorem witness_EqualIndicesAreRefused : distinctIndices 0 4 4 8 = false ∧ distinctIndices 3 1 2 3 = false := by decide

theorem witness_ScheduleEntriesAreTheirQuarterRounds :
    ((.sched7, 3, 4, 9, 14) : Instr × Index × Index × Index × Index) ∈ schedule := by
  decide

theorem witness_DisjointQuarterRoundsCommute : [(0 : Index), 4, 8, 12, 1, 5, 9, 13].Nodup := by decide

theorem witness_RoundsRunsHalfAsManyDoubleRounds : (0 < 2 ∧ 2 % 2 = 0) ∧ 0 < 20 ∧ 20 % 2 = 0 := by decide

theorem witness_OddRoundCountsAreRefused : (0 = 0 ∨ 0 % 2 = 1) ∧ (1 = 0 ∨ 1 % 2 = 1) ∧ (21 = 0 ∨ 21 % 2 = 1) := by
  decide

theorem witness_RoundEngineRunsInEveryState :
    (WellFormed .sched3 ∧ Instr.format .sched3 = .qri16) ∧
    (WellFormed (.qr 0 1 2 3) ∧ Instr.format (.qr 0 1 2 3) = .qri16) ∧
    (WellFormed .dround ∧ Instr.dround ∈ [Instr.cround, .dground, .dround]) ∧
    (WellFormed (.rounds 2) ∧ ∃ n, Instr.rounds 2 = .rounds n) :=
  ⟨by decide, by decide, by decide, by decide, _, rfl⟩

theorem witness_RoundEngineIsBijective :
    [(0 : Fin 4), 1, 2, 3].Nodup ∧ distinctIndices 3 4 9 14 = true ∧
      Instr.dround ∈ [Instr.cround, .dground, .dround] ∧ 0 < 2 ∧ 2 % 2 = 0 := by
  decide

theorem witness_KsbProducesOneBlock : (coreAt .r12 1 0).VALID = 1 := rfl

-- The low word all ones, the low word not all ones, and the rule's worked counter.
theorem witness_KsbCountsAcrossTheTwoWords :
    (let s := coreAt .r20 0 0xffffffffffffffff; s.VALID = 1 ∧ lo32 s.session.CTR = 0xffffffff) ∧
    (let s := coreAt .r20 0 0xfffffffe; s.VALID = 1 ∧ lo32 s.session.CTR ≠ 0xffffffff) ∧
    (let s := coreAt .r20 0 0xffffffff; s.VALID = 1 ∧ s.session.CTR = 0x00000000ffffffff) :=
  ⟨⟨rfl, by decide⟩, ⟨rfl, by decide⟩, rfl, by decide⟩

theorem witness_KsbClosedForm : (coreAt .r20 0 9).VALID = 1 ∧ Derived (coreAt .r20 0 9).session := ⟨rfl, rfl⟩

theorem witness_CounterWrapRepeatsTheKeystream :
    (let s := coreAt .r20 0 0xffffffffffffffff; s.VALID = 1 ∧ s.session.CTR = 0xffffffffffffffff) := ⟨rfl, rfl⟩

theorem witness_XorcCombinesOneChunk :
    (coreAt .r20 0 0).VALID = 1 ∧ (1 ≤ [(0 : Byte)].length ∧ [(0 : Byte)].length ≤ 64) ∧
      1 ≤ (List.replicate 64 (0 : Byte)).length ∧ (List.replicate 64 (0 : Byte)).length ≤ 64 :=
  ⟨rfl, by decide⟩

theorem witness_XorcRefusesOtherLengths :
    ([] : List Byte).length = 0 ∧ 64 < (List.replicate 65 (0 : Byte)).length := by
  decide

theorem witness_StreamIsXoredWithSuccessiveBlocks :
    let s := { coreAt .r20 0 0xffffffffffffffff with DIN := List.replicate 65 0 }
    s.VALID = 1 ∧ Derived s.session ∧ lengthAdmitted s.params.MAX_LEN s.DIN.length = true :=
  ⟨rfl, rfl, rfl⟩

theorem witness_EmptyInputAsksForNoBlock :
    (coreAt .r20 0 3).VALID = 1 ∧ (coreAt .r20 0 3).DIN = [] := ⟨rfl, rfl⟩

theorem witness_NoCoreNoStream :
    State.reset.VALID = 0 ∧ chunkLengthOk [(0 : Byte)].length = true := ⟨rfl, by decide⟩

-- A bound below, at and without the input's length; a round count beyond the three, offered and not; a key.
theorem witness_OpenParametersAreArguments :
    let s := { coreAt .r8 0 0 with DIN := hello }
    let below := { s with params := ⟨some 11, [8, 12, 20]⟩ }
    let at12 := { s with params := ⟨some 12, [8, 12, 20]⟩ }
    let wide := { ports zeroKey.toList 0 [] with params := ⟨none, [8, 12, 20, 24]⟩ }
    let n : RoundCount := ⟨24, rfl⟩
    (below.VALID = 1 ∧ below.params.MAX_LEN = some 11 ∧ 11 < below.DIN.length) ∧
    (at12.VALID = 1 ∧ at12.params.MAX_LEN = some 12 ∧ at12.DIN.length ≤ 12) ∧
    (s.VALID = 1 ∧ s.params.MAX_LEN = none) ∧
    (n.val ∈ wide.params.NUMBER_ROUND_DOMAIN ∧ wide.KEYBUF = zeroKey.toList) ∧
    n.val ∉ State.reset.params.NUMBER_ROUND_DOMAIN :=
  ⟨⟨rfl, rfl, by decide⟩, ⟨rfl, rfl, by decide⟩, ⟨rfl, rfl⟩, ⟨by decide, rfl⟩, by decide⟩

-- Two cores at one session; the second holds the first's output (spec/95_test_vectors.md 1.2).
theorem witness_RoundTripFromEqualSessions :
    let s := { coreAt .r20 0 0 with DIN := hello }
    let u := { coreAt .r20 0 0 with DIN := helloCipher, ERR := 1 }
    (s.VALID = 1 ∧ u.VALID = 1 ∧ u.session = s.session) ∧ lengthAdmitted s.params.MAX_LEN s.DIN.length = true ∧
      lengthAdmitted u.params.MAX_LEN s.DIN.length = true ∧ outputAfter .encrypt s = some u.DIN :=
  ⟨⟨rfl, rfl, rfl⟩, rfl, rfl, test_encrypt_hello⟩

theorem witness_RoundTripFromFreshCores :
    let s := ports countKey.toList 1 hello
    s.KEYBUF.length = 32 ∧ numberRound .r8 ∈ s.params.NUMBER_ROUND_DOMAIN ∧
      lengthAdmitted s.params.MAX_LEN s.DIN.length = true :=
  ⟨rfl, by decide, rfl⟩

theorem witness_OperationsJoinAtBlockBoundaries :
    (coreAt .r20 0 0).VALID = 1 ∧ (List.replicate 64 (0 : Byte)).length % 64 = 0 ∧
      lengthAdmitted (coreAt .r20 0 0).params.MAX_LEN (List.replicate 64 (0 : Byte) ++ [1]).length = true :=
  ⟨rfl, by decide, rfl⟩

theorem witness_KeystreamIsIndependentOfTheData :
    (coreAt .r20 0 0).VALID = 1 ∧ hello.length = helloCipher.length ∧
      lengthAdmitted (coreAt .r20 0 0).params.MAX_LEN hello.length = true :=
  ⟨rfl, rfl, rfl⟩

-- A machine just reset and one with a live core and a latched error.
theorem witness_FreshEncryptionIsDeterminedByItsOperands :
    let s1 := ports zeroKey.toList 1 hello
    let s2 := { (coreAt .r8 9 4).latch zeroKey.toList 1 hello with ERR := 1 }
    s1.KEYBUF = s2.KEYBUF ∧ s1.NONCE_IN = s2.NONCE_IN ∧ s1.DIN = s2.DIN ∧ s1.KEYBUF.length = 32 ∧
      ∀ s ∈ [s1, s2], numberRound .r12 ∈ s.params.NUMBER_ROUND_DOMAIN ∧
        lengthAdmitted s.params.MAX_LEN s.DIN.length = true := by
  decide +kernel

theorem witness_FreshOperationsBuildAndThenStream :
    let s := ports zeroKey.toList 1 hello
    s.KEYBUF.length = 32 ∧ lengthAdmitted s.params.MAX_LEN s.DIN.length = true ∧
      (Variant.r20, Instr.build20) ∈ [(Variant.r8, Instr.build8), (.r12, .build12), (.r20, .build20)] ∧
      numberRound .r20 ∈ s.params.NUMBER_ROUND_DOMAIN :=
  ⟨rfl, rfl, by decide, by decide⟩

theorem witness_FreshOperationsAreTheirExpansions :
    (let s := { State.reset with host := encryptFreshProgram .r12 zeroKey.toList 1 hello ++ [Request.reset] }
     s.seq = [] ∧ s.host = encryptFreshProgram .r12 zeroKey.toList 1 hello ++ [Request.reset]) ∧
    (let s := { State.reset with host := decryptFreshProgram .r12 [] 1 hello ++ [] }
     s.seq = [] ∧ s.host = decryptFreshProgram .r12 [] 1 hello ++ []) :=
  ⟨⟨rfl, rfl⟩, rfl, rfl⟩

theorem witness_StepKeepsTheInvariant :
    let s := { coreAt .r20 0 0 with host := [.command 0x20 [] 0 []] }
    Inv s ∧ ∃ t, step s = .next t :=
  ⟨⟨fun _ => rfl, rfl, fun _ => by decide⟩, _, rfl⟩

theorem witness_HostMovesLeaveNoTransients :
    let s := { coreAt .r20 0 0 with host := [.command 0x20 [] 0 []] }
    HostLevel s ∧ ∃ t, step s = .next t :=
  ⟨⟨rfl, rfl, rfl, rfl, rfl⟩, _, rfl⟩

theorem witness_StateLayoutHoldsAfterEveryStep :
    let s := { coreAt .r20 0 0 with seq := [.call .ksb] }
    Inv s ∧ ∃ t, step s = .next t ∧ t.VALID = 1 :=
  ⟨⟨fun _ => rfl, rfl, fun _ => by decide⟩, _, rfl, rfl⟩

-- One witness for each clause: KSB, XORC, ENCRYPT, and an instruction that produces no block.
theorem witness_CounterMovesByWholeBlocks :
    ((coreAt .r20 0 0).VALID = 1 ∧ Derived (coreAt .r20 0 0).session) ∧
    (isBuild .ksb = false ∧ ∃ t, exec .ksb (coreAt .r20 0 0) = .next t) ∧
    (isBuild (.xorc [0]) = false ∧ ∃ t, exec (.xorc [0]) (coreAt .r20 0 0) = .next t) ∧
    (isBuild .encrypt = false ∧ ∃ t, exec .encrypt (coreAt .r20 0 0) = .next t) ∧
    (isBuild (.init zeroKey 0 0) = false ∧ ∃ t, exec (.init zeroKey 0 0) (coreAt .r20 0 0) = .next t) :=
  ⟨⟨rfl, rfl⟩, ⟨rfl, _, rfl⟩, ⟨rfl, _, rfl⟩, ⟨rfl, _, rfl⟩, rfl, _, rfl⟩

end Sys2Proof.Tests
end

section
/-! PROOFS. The primitives of spec/00_scope.md section 5, in numbers and bit by bit. -/

namespace Sys2Proof.Machine

/-- The law the round trip rests on (R7): combining twice with one word gives the word back. -/
@[simp] theorem xor32_xor32_cancel (x k : Word) : xor32 (xor32 x k) k = x := by
  simp [xor32]

/-- The same law on bytes (R7). -/
@[simp] theorem xor8_xor8_cancel (x k : Byte) : xor8 (xor8 x k) k = x := by
  simp [xor8]

/-- The two parts of a rotated word do not overlap, so their disjunction is the sum of R8. -/
theorem rotl32_toNat (x : Word) {r : Nat} (hr : r < 32) :
    (rotl32 x r).toNat = x.toNat * 2 ^ r % 2 ^ 32 + x.toNat / 2 ^ (32 - r) := by
  have hsplit : (2 : Nat) ^ 32 = 2 ^ r * 2 ^ (32 - r) := by rw [← pow_add]; congr 1; omega
  have hhigh : x.toNat * 2 ^ r % 2 ^ 32 = 2 ^ r * (x.toNat % 2 ^ (32 - r)) := by
    rw [hsplit, Nat.mul_comm, Nat.mul_mod_mul_left]
  have hlow : x.toNat / 2 ^ (32 - r) < 2 ^ r :=
    Nat.div_lt_of_lt_mul (by rw [Nat.mul_comm, ← hsplit]; exact x.isLt)
  rw [rotl32, BitVec.toNat_rotateLeft, Nat.mod_eq_of_lt hr, Nat.shiftLeft_eq, Nat.shiftRight_eq_div_pow, hhigh,
    Nat.two_pow_add_eq_or_of_lt hlow]

/-- A bit either moves up by `r` or wraps around past bit 31 (R8). -/
theorem rotl32_getLsbD (x : Word) {r i : Nat} (hr : r < 32) (hi : i < 32) :
    (rotl32 x r).getLsbD ((i + r) % 32) = x.getLsbD i := by
  rw [rotl32, BitVec.getLsbD_rotateLeft, Nat.mod_eq_of_lt hr]
  by_cases hwrap : i + r < 32
  · simp [Nat.mod_eq_of_lt hwrap, hwrap]
  · have hmod : (i + r) % 32 = i + r - 32 := by omega
    have hlow : i + r - 32 < r := by omega
    have hback : 32 - r + (i + r - 32) = i := by omega
    simp [hmod, hlow, hback]

/-- Concatenation in numbers: the operands do not overlap. -/
theorem append_toNat {m n : Nat} (x : BitVec m) (y : BitVec n) : (x ++ y).toNat = 2 ^ n * x.toNat + y.toNat := by
  rw [BitVec.toNat_append, ← Nat.shiftLeft_add_eq_or_of_lt y.isLt, Nat.shiftLeft_eq, Nat.mul_comm]

theorem le32dec_toNat (b0 b1 b2 b3 : Byte) :
    (le32dec b0 b1 b2 b3).toNat = b0.toNat + 256 * b1.toNat + 65536 * b2.toNat + 16777216 * b3.toNat := by
  simp only [le32dec, append_toNat]
  omega

theorem le32enc_getElem (w : Word) {k : Nat} (hk : k < 4) : (le32enc w)[k] = w.extractLsb' (8 * k) 8 := by
  match k, hk with
  | 0, _ | 1, _ | 2, _ | 3, _ => rfl

theorem le32enc_getElem_toNat (w : Word) {k : Nat} (hk : k < 4) :
    (le32enc w)[k].toNat = w.toNat / 2 ^ (8 * k) % 256 := by
  rw [le32enc_getElem w hk, BitVec.extractLsb'_toNat, Nat.shiftRight_eq_div_pow]

/-- A word is the sum of its four bytes by their weights. -/
@[simp] theorem le32dec_le32enc (w : Word) :
    le32dec (le32enc w)[0] (le32enc w)[1] (le32enc w)[2] (le32enc w)[3] = w := by
  apply BitVec.eq_of_toNat_eq
  simp only [le32dec_toNat, le32enc_getElem_toNat]
  omega

/-- The bytes below the k-th are lost in the division by its weight, those above it in the remainder. -/
@[simp] theorem le32enc_le32dec (b0 b1 b2 b3 : Byte) : le32enc (le32dec b0 b1 b2 b3) = #v[b0, b1, b2, b3] := by
  ext k hk : 1
  apply BitVec.eq_of_toNat_eq
  rw [le32enc_getElem_toNat _ hk, le32dec_toNat]
  match k, hk with
  | 0, _ | 1, _ | 2, _ | 3, _ => simp; omega

theorem lo32_toNat (v : Word64) : (lo32 v).toNat = v.toNat % 2 ^ 32 := by
  rw [lo32, BitVec.extractLsb'_toNat, Nat.shiftRight_zero]

/-- The high half needs no reduction: a 64-bit value divided by 2^32 is below 2^32 (R12). -/
theorem hi32_toNat (v : Word64) : (hi32 v).toNat = v.toNat / 2 ^ 32 := by
  rw [hi32, BitVec.extractLsb'_toNat, Nat.shiftRight_eq_div_pow, Nat.mod_eq_of_lt]
  omega

end Sys2Proof.Machine
end

section
/-! PROOFS. What a step finds to do, and what the open parameters admit. -/

namespace Sys2Proof.Machine

/-- With the sequencer empty the host's next move is fetched. -/
theorem fetch_of_host {s : State} {r : Request} {rest : List Request} (hseq : s.seq = [])
    (hhost : s.host = r :: rest) : fetch s = fetchRequest r { s with host := rest } := by
  simp only [fetch, hseq, hhost]

theorem fetchRequest_command {c : BitVec 8} {i : Instr} (k : List Byte) (n : Word64) (d : List Byte) (s : State)
    (hdec : decodeCommand c = .ok i) : fetchRequest (.command c k n d) s = .run i (s.latch k n d) := by
  simp only [fetchRequest, hdec, fetchDecoded]

theorem step_of_run {s t : State} {i : Instr} (h : fetch s = .run i t) : step s = exec i t := by
  simp only [step, h]

@[simp] theorem lengthAdmitted_none (n : Nat) : lengthAdmitted none n = true := rfl

@[simp] theorem lengthAdmitted_some (m n : Nat) : lengthAdmitted (some m) n = true ↔ n ≤ m := by
  simp [lengthAdmitted]

/-- ENCRYPT and DECRYPT are the one shared operation (spec/43_stream_combiner.md R85). -/
theorem exec_of_mem_encrypt_decrypt {i : Instr} (hi : i ∈ [Instr.encrypt, .decrypt]) (s : State) :
    exec i s = streamCombine s := by
  rcases List.mem_pair.mp hi with rfl | rfl <;> rfl

/-- With a core an input over the bound is refused (spec/60_exceptions.md R108). -/
theorem streamCombine_of_not_admitted {s : State} (hv : s.VALID = 1)
    (hl : ¬ lengthAdmitted s.params.MAX_LEN s.DIN.length = true) :
    streamCombine s = .refused (.inputTooLong s.DIN.length) := by
  rw [streamCombine, withCore_of_valid hv, if_neg hl]

/-- An admitted ENCRYPT or DECRYPT does what it does without a bound. -/
theorem streamCombine_without_bound {s : State} (hv : s.VALID = 1)
    (hl : lengthAdmitted s.params.MAX_LEN s.DIN.length = true) :
    ∃ t, streamCombine { s with params := { s.params with MAX_LEN := none } } = .next t ∧
      streamCombine s = .next { t with params := s.params } :=
  ⟨_, streamCombine_of_valid hv rfl, streamCombine_of_valid hv hl⟩

theorem build_of_not_offered {n : RoundCount} {s : State} (hd : n.val ∉ s.params.NUMBER_ROUND_DOMAIN) :
    build n s = .refused (.roundCountNotOffered n.val) := by
  rw [build, if_neg (by simpa using hd)]

/-- BUILD of a count that is offered, with a 32-byte key, constructs a fresh core. -/
theorem build_of_key {n : RoundCount} {s : State} {key : Key} (hd : n.val ∈ s.params.NUMBER_ROUND_DOMAIN)
    (hk : s.KEYBUF = key.toList) : build n s = .next (s.install (freshSession n key s.NONCE_IN)) := by
  rw [build, if_pos (by simpa using hd), hk, keyOperand_toList]

/-- BUILD of a count that is offered runs, whatever the key. -/
theorem build_of_offered {n : RoundCount} {s : State} (hd : n.val ∈ s.params.NUMBER_ROUND_DOMAIN) :
    ∃ t, build n s = .next t := by
  rcases build_cases n s with ⟨-, -, hb⟩ | ⟨key, -, -, hb⟩ | ⟨hn, -⟩
  · exact ⟨_, hb⟩
  · exact ⟨_, hb⟩
  · exact absurd hd hn

end Sys2Proof.Machine
end

section
/-! PROOFS. The statements of the family spec/00_scope.md. -/

namespace Sys2Proof.Proofs

open Sys2Proof.Machine

/-- Settles O3: the two parts of the rotated word do not overlap; a bit moves up or wraps around. -/
theorem rotl32MovesEveryBit : Obligations.Rotl32MovesEveryBit :=
  fun x _ _ hr => ⟨rotl32_toNat x hr, fun _ hi => rotl32_getLsbD x hr hi⟩

/-- Settles O4, by the values of the word and of each byte in numbers. -/
theorem le32CodingIsLittleEndianAndInverse : Obligations.Le32CodingIsLittleEndianAndInverse :=
  ⟨le32dec_toNat, fun w k => le32enc_getElem_toNat w k.isLt, le32dec_le32enc, le32enc_le32dec, by decide, by decide⟩

/-- Settles O1: the primitives are addition of bit vectors. -/
theorem additionPrimitivesWrap : Obligations.AdditionPrimitivesWrap :=
  ⟨BitVec.toNat_add, BitVec.add_comm, BitVec.add_assoc, BitVec.add_zero, by decide, by decide, BitVec.toNat_add,
    by decide⟩

/-- Settles O2: the primitives are exclusive or of bit vectors. -/
theorem xorPrimitivesAreBitwise : Obligations.XorPrimitivesAreBitwise :=
  ⟨fun _ _ _ => BitVec.getLsbD_xor, fun _ _ _ => BitVec.getLsbD_xor,
    BitVec.xor_comm, BitVec.xor_assoc, fun _ => ⟨BitVec.xor_zero, BitVec.xor_self⟩, xor32_xor32_cancel,
    BitVec.xor_comm, BitVec.xor_assoc, fun _ => ⟨BitVec.xor_zero, BitVec.xor_self⟩, xor8_xor8_cancel⟩

/-- Settles O5: the halves are remainder and quotient by 2^32, and INIT places them low half first. -/
theorem loHiSplitAndPlacement : Obligations.LoHiSplitAndPlacement := by
  refine ⟨fun v => ⟨lo32_toNat v, hi32_toNat v, ?_⟩, fun key nonce blk =>
    ⟨initState_12 key nonce blk, initState_13 key nonce blk, initState_14 key nonce blk,
      initState_15 key nonce blk⟩⟩
  rw [lo32_toNat, hi32_toNat, Nat.mod_add_div]

/-- Settles O14: the fetched command is decoded and its operands are latched. -/
theorem stepRunsThePresentedCommand : Obligations.StepRunsThePresentedCommand := by
  intro s c k n d rest i hseq hhost hdec
  have hfetch : fetch s = .run i ({ s with host := rest }.latch k n d) := by
    rw [fetch_of_host hseq hhost, fetchRequest_command k n d _ hdec]
  exact step_of_run hfetch

/-- Settles O48: the bound decides only whether ENCRYPT and DECRYPT are admitted, the domain only whether BUILD is. -/
theorem openParametersAreArguments : Obligations.OpenParametersAreArguments := by
  refine ⟨fun s c m hv _ hm i hi => ?bounded, fun s c hv _ hm i hi => ?unbounded,
    fun s n => ⟨fun hd => ?offered, build_of_not_offered⟩, fun s => ⟨rfl, rfl, rfl⟩⟩
  case bounded =>
    simp only [exec_of_mem_encrypt_decrypt hi]
    refine ⟨fun hlong => streamCombine_of_not_admitted hv ?_, fun hfits => streamCombine_without_bound hv ?_⟩
    · simpa [hm] using hlong
    · simpa [hm] using hfits
  case unbounded =>
    rw [exec_of_mem_encrypt_decrypt hi]
    exact ⟨_, streamCombine_of_valid hv (by rw [hm, lengthAdmitted_none])⟩
  case offered =>
    obtain ⟨t, ht⟩ := build_of_offered hd
    refine ⟨t, ht, fun key hk => ?_⟩
    obtain rfl : s.install (freshSession n key s.NONCE_IN) = t := by simpa [build_of_key hd hk] using ht
    exact ⟨rfl, rfl⟩

end Sys2Proof.Proofs
end

section
/-! PROOFS. What a step finds to do and what it leaves of the core, the status and the parameters (spec/10_state.md R21
to R24). -/

namespace Sys2Proof.Machine

open Sys2Proof.Safety

/-! What is fetched. -/

theorem fetch_of_seq {s : State} {m : SeqItem} {rest : List SeqItem} (hseq : s.seq = m :: rest) :
    fetch s = fetchItem m { s with seq := rest } := by
  simp only [fetch, hseq]

theorem fetch_of_nothing {s : State} (hseq : s.seq = []) (hhost : s.host = []) : fetch s = .idle := by
  simp only [fetch, hseq, hhost]

theorem step_of_done {s t : State} (h : fetch s = .done t) : step s = .next t := by
  simp only [step, h]

/-- What a fetch leaves of the core: it is as it was, or the move was RESET (spec/70_reset_and_hazards.md R115). -/
def LeavesCore (s : State) : Fetched → Prop
  | .idle | .refused _ => True
  | .done t => Effect s t 0 ∨ ∃ u : State, t = u.resetCore ∧ u.params = s.params
  | .run _ u => Effect s u 0

theorem fetchDecoded_leavesCore (d : Except Reject Instr) {s u : State} (h : Effect s u 0) :
    LeavesCore s (fetchDecoded d u) := by
  cases d with
  | ok i => exact h
  | error e => trivial

/-- Fetching takes the item away and latches the ports at most. -/
theorem fetch_leavesCore (s : State) : LeavesCore s (fetch s) := by
  cases hseq : s.seq with
  | cons m rest =>
    rw [fetch_of_seq hseq]
    cases m with
    | array x => exact .inl (.refl rfl rfl rfl rfl rfl)
    | entry q => exact fetchDecoded_leavesCore _ (.refl rfl rfl rfl rfl rfl)
    | call i => exact .refl rfl rfl rfl rfl rfl
  | nil =>
    cases hhost : s.host with
    | nil =>
      rw [fetch_of_nothing hseq hhost]
      trivial
    | cons r rest =>
      rw [fetch_of_host hseq hhost]
      cases r with
      | reset => exact .inr ⟨_, rfl, rfl⟩
      | command c k n d => exact fetchDecoded_leavesCore _ (.refl rfl rfl rfl rfl rfl)
      | observe p => exact .inl (.refl (by simp) (by simp) (by simp) (by simp) (by simp))

/-- All a step can do to the core: nothing, RESET, or one instruction on the core as it was. -/
theorem step_effect_cases {s t : State} (h : step s = .next t) :
    Effect s t 0 ∨ (∃ u : State, t = u.resetCore ∧ u.params = s.params) ∨
      ∃ i u, Effect s u 0 ∧ exec i u = .next t := by
  have hfetch := fetch_leavesCore s
  rcases step_cases h with ⟨-, rfl⟩ | hd | ⟨i, u, hr, hx⟩
  · exact .inl (.refl rfl rfl rfl rfl rfl)
  · rw [hd] at hfetch
    exact hfetch.imp_right .inl
  · rw [hr] at hfetch
    exact .inr (.inr ⟨i, u, hfetch, hx⟩)

theorem step_params {s t : State} (h : step s = .next t) : t.params = s.params := by
  rcases step_effect_cases h with he | ⟨u, rfl, hp⟩ | ⟨i, u, he, hx⟩
  · exact he.params
  · exact hp
  · rw [exec_params hx, he.params]

/-! The invariant (spec/10_state.md R17, R21, R23). -/

/-- Without a core only the latched error is to be kept. -/
theorem inv_of_no_core {s : State} (hv : s.VALID = 0) (he : ErrLatched s) : Inv s := by
  have hno : ¬ s.VALID = 1 := by rw [hv]; decide
  exact ⟨fun h => absurd h hno, he, fun h => absurd h hno⟩

/-- Blocks of a core that is derived and of a count that is offered keep both: the key, the nonce and the round count
stay, and each block's new `S` is derived. -/
theorem inv_of_blocks {t : State} {c : Session} {q : Nat} (hsess : t.session = (advance)^[q] c) (herr : ErrLatched t)
    (hc : t.VALID = 1 → Derived c ∧ c.ROUNDS.val ∈ t.params.NUMBER_ROUND_DOMAIN) : Inv t := by
  obtain ⟨-, -, hrounds, -⟩ := advance_iterate q c
  refine ⟨fun hv => ?_, herr, fun hv => ?_⟩
  · rw [hsess]
    exact advance_iterate_derived q c (hc hv).1
  · rw [hsess, hrounds]
    exact (hc hv).2

theorem Effect.inv {s t : State} {q : Nat} (h : Effect s t q) (hs : Inv s) : Inv t := by
  obtain ⟨hquiet, herr, hrounds⟩ := hs
  refine inv_of_blocks h.session (by rw [ErrLatched, h.err, h.result]; exact herr) fun hv => ?_
  rw [h.valid] at hv
  rw [h.params]
  exact ⟨hquiet hv, hrounds hv⟩

theorem freshSession_derived (n : RoundCount) (key : Key) (nonce : Word64) : Derived (freshSession n key nonce) := rfl

/-- A failed BUILD leaves an earlier core, if any; a fresh core is derived and of a count that is offered. -/
theorem BuildEffect.inv {s t : State} (h : BuildEffect s t) (hs : Inv s) : Inv t := by
  obtain ⟨hquiet, -, hrounds⟩ := hs
  cases h with
  | failed q hp _ hv he hr hsess _ =>
    refine inv_of_blocks hsess (by rw [ErrLatched, he, hr]; rfl) fun hvt => ?_
    rw [hv] at hvt
    rw [hp]
    exact ⟨hquiet hvt, hrounds hvt⟩
  | built n key q hp hd _ _ he hr hsess =>
    refine inv_of_blocks hsess (by rw [ErrLatched, he, hr]; rfl) fun _ => ?_
    rw [hp]
    exact ⟨freshSession_derived n key s.NONCE_IN, hd⟩

theorem exec_inv {i : Instr} {s t : State} (hs : Inv s) (h : exec i s = .next t) : Inv t := by
  cases hi : isBuild i with
  | false =>
    obtain ⟨q, he⟩ := exec_effect hi h
    exact he.inv hs
  | true => exact (exec_buildEffect hi h).inv hs

theorem step_inv {s t : State} (hs : Inv s) (h : step s = .next t) : Inv t := by
  rcases step_effect_cases h with he | ⟨u, rfl, -⟩ | ⟨i, u, he, hx⟩
  · exact he.inv hs
  · exact inv_of_no_core rfl rfl
  · exact exec_inv (he.inv hs) hx

/-! Between host operations (spec/10_state.md R24). -/

theorem decodeBuild_format {c : BitVec 8} {i : Instr} (h : decodeBuild c = .ok i) : i.format = .cmd8 := by
  unfold decodeBuild at h
  split at h <;> cases h <;> rfl

/-- A command word answers ENCRYPT or DECRYPT only under the two reserved-field checks (spec/30_encoding.md R53). -/
theorem format_of_checked {c : BitVec 8} {i j : Instr} (hj : j.format = .cmd8)
    (h : (if zField c ≠ 0 then .error (.reservedZ c) else if vField c = 0 then .ok j else .error (.reservedV c) :
      Except Reject Instr) = .ok i) : i.format = .cmd8 := by
  split at h
  · cases h
  · split at h <;> cases h
    exact hj

/-- Command words stand for host commands alone (spec/30_encoding.md R45, R53). -/
theorem decodeCommand_format {c : BitVec 8} {i : Instr} (h : decodeCommand c = .ok i) : i.format = .cmd8 := by
  unfold decodeCommand at h
  split at h
  · split at h
    · exact decodeBuild_format h
    · cases h
  · exact format_of_checked rfl h
  · exact format_of_checked rfl h
  · cases h

theorem build_hostLevel {n : RoundCount} {s t : State} (hs : HostLevel s) (h : build n s = .next t) : HostLevel t := by
  obtain ⟨-, ⟨-, rfl⟩ | ⟨key, -, rfl⟩⟩ := build_next h
  · exact hs
  · exact hs

theorem streamCombine_hostLevel {s t : State} (hs : HostLevel s) (h : streamCombine s = .next t) : HostLevel t := by
  obtain ⟨-, -, rfl⟩ := streamCombine_next h
  exact ⟨hs.1, rfl, rfl, rfl, rfl⟩

/-- A host command leaves no transient array: BUILD writes none, ENCRYPT and DECRYPT clear them at their end. -/
theorem exec_command_hostLevel {i : Instr} {s t : State} (hi : i.format = .cmd8) (hs : HostLevel s)
    (h : exec i s = .next t) : HostLevel t := by
  cases i with
  | build8 | build12 | build20 => exact build_hostLevel hs h
  | encrypt | decrypt => exact streamCombine_hostLevel hs h
  | qr _ _ _ _ | sched0 | sched1 | sched2 | sched3 | sched4 | sched5 | sched6 | sched7 | init _ _ _ | cround | dground
  | dround | rounds _ | ksb | xorc _ | encryptFresh _ | decryptFresh _ => cases hi

theorem afterRead_hostLevel {s : State} (p : Port) (hs : HostLevel s) : HostLevel (s.afterRead p) := by
  cases p <;> exact hs

theorem step_hostLevel {s t : State} (hs : HostLevel s) (h : step s = .next t) : HostLevel t := by
  have hseq : s.seq = [] := hs.1
  cases hhost : s.host with
  | nil =>
    rw [step, fetch_of_nothing hseq hhost] at h
    cases h
    exact hs
  | cons r rest =>
    have hfetch := fetch_of_host hseq hhost
    cases r with
    | reset =>
      rw [step_of_done hfetch] at h
      cases h
      exact ⟨rfl, rfl, rfl, rfl, rfl⟩
    | observe p =>
      rw [step_of_done hfetch] at h
      cases h
      exact afterRead_hostLevel p hs
    | command c k n d =>
      cases hdec : decodeCommand c with
      | error e =>
        rw [step, hfetch, fetchRequest, hdec] at h
        cases h
      | ok i =>
        rw [fetchRequest_command k n d _ hdec] at hfetch
        rw [step_of_run hfetch] at h
        have hlatched : HostLevel ({ s with host := rest }.latch k n d) := hs
        exact exec_command_hostLevel (decodeCommand_format hdec) hlatched h

/-! Observation (spec/10_state.md R27). -/

theorem step_of_observe {s : State} {p : Port} {rest : List Request} (hseq : s.seq = [])
    (hhost : s.host = .observe p :: rest) : step s = .next ({ s with host := rest }.afterRead p) :=
  step_of_done (fetch_of_host hseq hhost)

theorem afterRead_eq_self {s : State} {p : Port} (h : p ≠ .ctr ∨ s.VALID = 1) : s.afterRead p = s := by
  cases p with
  | valid | err => rfl
  | ctr => rw [State.afterRead, if_pos (h.resolve_left (fun hne => hne rfl))]

theorem afterRead_ctr_of_no_core {s : State} (hv : s.VALID = 0) :
    s.afterRead .ctr = { s with reads := s.reads + 1 } := by
  simp [State.afterRead, hv]

end Sys2Proof.Machine
end

section
/-! PROOFS. While `VALID = 0` the registers of the core cannot matter (spec/10_state.md R22, R29): whatever reads them
asks for `VALID = 1` first, and everything else hands them on. -/

namespace Sys2Proof.Machine

open Sys2Proof.Safety

theorem sameButUnbuilt_refl (s : State) : SameButUnbuilt s s := ⟨rfl, fun _ => rfl⟩

theorem outcomesAgree_refl (r : Result) : OutcomesAgree r r := by
  cases r with
  | next s => exact sameButUnbuilt_refl s
  | fault e | refused e => rfl

/-- Two such states are one, or neither has a core and they differ in the session alone. -/
theorem sameButUnbuilt_cases {s t : State} (h : SameButUnbuilt s t) :
    t = s ∨ (s.VALID = 0 ∧ ∃ c, t = { s with session := c }) := by
  obtain ⟨heq, hsess⟩ := h
  rcases s.VALID_eq_zero_or_one with hv | hv
  · exact .inr ⟨hv, _, heq⟩
  · rw [hsess hv] at heq
    exact .inl heq

theorem sameButUnbuilt_valid {s t : State} (h : SameButUnbuilt s t) : t.VALID = s.VALID := by
  rw [h.1]

/-- An update that hands the session on and constructs no core keeps the difference where it was. -/
theorem sameButUnbuilt_map {s t : State} (h : SameButUnbuilt s t) (f : State → State)
    (hf : ∀ u c, f { u with session := c } = { f u with session := c })
    (hv : ∀ u, (f u).VALID = 1 → u.VALID = 1) : SameButUnbuilt (f s) (f t) := by
  rcases sameButUnbuilt_cases h with rfl | ⟨hno, c, rfl⟩
  · exact sameButUnbuilt_refl _
  · rw [hf s c]
    exact ⟨rfl, fun hvalid => absurd (hno.symm.trans (hv s hvalid)) (by decide)⟩

theorem observe_agree {s t : State} (h : SameButUnbuilt s t) (p : Port) : observe p s = observe p t := by
  rcases sameButUnbuilt_cases h with rfl | ⟨hv, c, rfl⟩
  · rfl
  · cases p with
    | valid | err => rfl
    | ctr => simp [observe, hv]

theorem onArray_agree (f : Words → Words) {s t : State} (h : SameButUnbuilt s t) :
    OutcomesAgree (onArray f s) (onArray f t) :=
  sameButUnbuilt_map h (fun u => u.putX (f u.X)) (fun _ _ => rfl) (fun _ hv => hv)

/-- An operation that is refused without a core, before it reads a register. -/
theorem agree_of_refused {f : State → Result} {e : Refusal} {s t : State}
    (hf : ∀ u, u.VALID = 0 → f u = .refused e) (h : SameButUnbuilt s t) : OutcomesAgree (f s) (f t) := by
  rcases sameButUnbuilt_cases h with rfl | ⟨hv, -⟩
  · exact outcomesAgree_refl _
  · rw [hf s hv, hf t ((sameButUnbuilt_valid h).trans hv)]
    rfl

theorem streamCombine_agree {s t : State} (h : SameButUnbuilt s t) :
    OutcomesAgree (streamCombine s) (streamCombine t) :=
  agree_of_refused (f := streamCombine) (fun _ => withCore_of_invalid) h

theorem execKsb_agree {s t : State} (h : SameButUnbuilt s t) : OutcomesAgree (execKsb s) (execKsb t) :=
  agree_of_refused (f := execKsb) (fun _ => withCore_of_invalid) h

/-- The chunk's length decides before the core is asked for (assumption 12). -/
theorem execXorc_agree (chunk : List Byte) {s t : State} (h : SameButUnbuilt s t) :
    OutcomesAgree (execXorc chunk s) (execXorc chunk t) := by
  by_cases hc : chunkLengthOk chunk.length = true
  · exact agree_of_refused (fun u hv => by rw [execXorc, if_pos hc, withCore_of_invalid hv]) h
  · exact agree_of_refused (fun u _ => by rw [execXorc, if_neg hc]) h

/-- BUILD overwrites every register of the session, or none. -/
theorem build_agree (n : RoundCount) {s t : State} (h : SameButUnbuilt s t) :
    OutcomesAgree (build n s) (build n t) := by
  rcases sameButUnbuilt_cases h with rfl | ⟨-, c, rfl⟩
  · exact outcomesAgree_refl _
  · unfold build
    split
    · cases keyOperand s.KEYBUF with
      | none => exact sameButUnbuilt_map h State.raiseInvalidKeySize (fun _ _ => rfl) (fun _ hv => hv)
      | some key => exact sameButUnbuilt_refl _
    · rfl

theorem andThen_agree {r q : Result} {f : State → Result} (h : OutcomesAgree r q)
    (hf : ∀ s t, SameButUnbuilt s t → OutcomesAgree (f s) (f t)) : OutcomesAgree (andThen r f) (andThen q f) := by
  cases r <;> cases q
  case next.next s t => exact hf s t h
  case fault.fault | refused.refused => exact h
  all_goals exact h.elim

theorem fresh_agree (r : Variant) {s t : State} (h : SameButUnbuilt s t) :
    OutcomesAgree (andThen (execBuild r s) streamCombine) (andThen (execBuild r t) streamCombine) := by
  rw [execBuild_eq, execBuild_eq]
  exact andThen_agree (build_agree _ h) (fun _ _ => streamCombine_agree)

/-- No instruction can tell what an unbuilt core's registers hold. -/
theorem exec_agree (i : Instr) {s t : State} (h : SameButUnbuilt s t) : OutcomesAgree (exec i s) (exec i t) := by
  cases i with
  | build8 | build12 | build20 => exact build_agree _ h
  | encrypt | decrypt => exact streamCombine_agree h
  | encryptFresh r | decryptFresh r => exact fresh_agree r h
  | sched0 | sched1 | sched2 | sched3 | sched4 | sched5 | sched6 | sched7 =>
    simp only [exec, execSched0, execSched1, execSched2, execSched3, execSched4, execSched5, execSched6, execSched7]
    exact onArray_agree _ h
  | cround | dground | dround => exact onArray_agree _ h
  | init key nonce blk =>
    exact sameButUnbuilt_map h (fun u => { u with T := some (initState key nonce blk) }) (fun _ _ => rfl)
      (fun _ hv => hv)
  | qr a b c d =>
    simp only [exec, execQr]
    split
    · exact onArray_agree _ h
    · rfl
  | rounds n =>
    simp only [exec, execRounds]
    split
    · exact onArray_agree _ h
    · rfl
  | ksb => exact execKsb_agree h
  | xorc chunk => exact execXorc_agree chunk h

/-- Two fetches that found the same thing to do, on states that differ at most in the registers of an unbuilt core. -/
inductive FetchedAgree : Fetched → Fetched → Prop where
  /-- Nothing is presented to either. -/
  | idle : FetchedAgree .idle .idle
  /-- Both moves are complete. -/
  | done {s t : State} (h : SameButUnbuilt s t) : FetchedAgree (.done s) (.done t)
  /-- Both run one instruction. -/
  | run (i : Instr) {s t : State} (h : SameButUnbuilt s t) : FetchedAgree (.run i s) (.run i t)
  /-- Both are refused for one reason. -/
  | refused (r : Refusal) : FetchedAgree (.refused r) (.refused r)

theorem fetchDecoded_agree (d : Except Reject Instr) {s t : State} (h : SameButUnbuilt s t) :
    FetchedAgree (fetchDecoded d s) (fetchDecoded d t) := by
  cases d with
  | ok i => exact .run i h
  | error e => exact .refused _

theorem fetchItem_agree (m : SeqItem) {s t : State} (h : SameButUnbuilt s t) :
    FetchedAgree (fetchItem m s) (fetchItem m t) := by
  cases m with
  | array x => exact .done (sameButUnbuilt_map h (State.putX · x) (fun _ _ => rfl) (fun _ hv => hv))
  | entry q => exact fetchDecoded_agree _ h
  | call i => exact .run i h

theorem fetchRequest_agree (r : Request) {s t : State} (h : SameButUnbuilt s t) :
    FetchedAgree (fetchRequest r s) (fetchRequest r t) := by
  cases r with
  | reset => exact .done (sameButUnbuilt_map h State.resetCore (fun _ _ => rfl) (fun _ hv => absurd hv (by simp)))
  | command cmd k n d =>
    exact fetchDecoded_agree _ (sameButUnbuilt_map h (State.latch · k n d) (fun _ _ => rfl) (fun _ hv => hv))
  | observe p =>
    exact .done (sameButUnbuilt_map h (State.afterRead · p) (fun _ _ => by cases p <;> rfl)
      (fun u hv => by simpa using hv))

theorem fetch_agree {s t : State} (h : SameButUnbuilt s t) : FetchedAgree (fetch s) (fetch t) := by
  have hseq_eq : t.seq = s.seq := by rw [h.1]
  have hhost_eq : t.host = s.host := by rw [h.1]
  cases hseq : s.seq with
  | cons m rest =>
    rw [fetch_of_seq hseq, fetch_of_seq (hseq_eq.trans hseq)]
    exact fetchItem_agree m (sameButUnbuilt_map h (fun u => { u with seq := rest }) (fun _ _ => rfl) (fun _ hv => hv))
  | nil =>
    cases hhost : s.host with
    | cons r rest =>
      rw [fetch_of_host hseq hhost, fetch_of_host (hseq_eq.trans hseq) (hhost_eq.trans hhost)]
      exact fetchRequest_agree r
        (sameButUnbuilt_map h (fun u => { u with host := rest }) (fun _ _ => rfl) (fun _ hv => hv))
    | nil =>
      rw [fetch_of_nothing hseq hhost, fetch_of_nothing (hseq_eq.trans hseq) (hhost_eq.trans hhost)]
      exact .idle

theorem step_agree {s t : State} (h : SameButUnbuilt s t) : OutcomesAgree (step s) (step t) := by
  have hfetch := fetch_agree h
  unfold step
  generalize fetch s = x, fetch t = y at hfetch
  cases hfetch with
  | idle => exact h
  | done hdone => exact hdone
  | run i hrun => exact exec_agree i hrun
  | refused r => rfl

end Sys2Proof.Machine
end

section
/-! PROOFS. How far an instruction moves the core, and the words of a derived state (spec/10_state.md R15 to R19). -/

namespace Sys2Proof.Machine

open Sys2Proof.Safety

theorem length_of_keyOperand_eq_some {l : List Byte} {key : Key} (h : keyOperand l = some key) : l.length = 32 :=
  (keyOperand_isSome l).mp (by rw [h]; rfl)

/-- Without a successful BUILD the core only moves by blocks. -/
theorem exec_moves_by_blocks {i : Instr} {s t : State} (h : exec i s = .next t)
    (hi : isBuild i = false ∨ s.KEYBUF.length ≠ 32) :
    t.VALID = s.VALID ∧ ∃ q, t.session = (advance)^[q] s.session := by
  cases hb : isBuild i with
  | false =>
    obtain ⟨q, he⟩ := exec_effect hb h
    exact ⟨he.valid, q, he.session⟩
  | true =>
    have hlen : s.KEYBUF.length ≠ 32 := hi.resolve_left (by simp [hb])
    cases exec_buildEffect hb h with
    | failed q _ _ hv _ _ hs _ => exact ⟨hv, q, hs⟩
    | built n key q _ _ hk => exact absurd (length_of_keyOperand_eq_some hk) hlen

/-- A BUILD with a 32-byte key constructs a core. -/
theorem exec_build_valid {i : Instr} {s t : State} (hi : isBuild i = true) (hlen : s.KEYBUF.length = 32)
    (h : exec i s = .next t) : t.VALID = 1 := by
  cases exec_buildEffect hi h with
  | failed _ _ hk => exact absurd hlen hk
  | built _ _ _ _ _ _ hv => exact hv

/-- The number of blocks an instruction that builds no core produces, on the input `din` (spec/43_stream_combiner.md
R82, R83, R86). -/
def blocksProduced (i : Instr) (din : List Byte) : Nat :=
  match i with
  | .ksb => 1
  | .xorc _ => 1
  | .encrypt | .decrypt => chunkCount din.length
  | _ => 0

theorem blocksProduced_eq_zero {i : Instr} (din : List Byte) (hk : i ≠ .ksb) (hx : ∀ chunk, i ≠ .xorc chunk)
    (he : i ≠ .encrypt) (hd : i ≠ .decrypt) : blocksProduced i din = 0 := by
  unfold blocksProduced
  split
  · exact absurd rfl hk
  · exact absurd rfl (hx _)
  · exact absurd rfl he
  · exact absurd rfl hd
  · rfl

/-- Writing the operand array produces no block. -/
theorem effect_putX {x : Words} {s t : State} (h : (.next (s.putX x) : Result) = .next t) : Effect s t 0 := by
  cases h
  exact .refl rfl rfl rfl rfl rfl

/-- `exec_effect` with its number of blocks. -/
theorem exec_effect_blocks {i : Instr} {s t : State} (hi : isBuild i = false) (h : exec i s = .next t) :
    Effect s t (blocksProduced i s.DIN) := by
  cases i with
  | build8 | build12 | build20 | encryptFresh _ | decryptFresh _ => cases hi
  | encrypt | decrypt =>
    obtain ⟨hv, -, rfl⟩ := streamCombine_next h
    exact ⟨rfl, rfl, rfl, rfl, by simp [combine_session, blocksProduced], fun _ => hv⟩
  | ksb =>
    simp only [exec, execKsb] at h
    obtain ⟨hv, h⟩ := withCore_next h
    cases h
    exact ⟨rfl, rfl, rfl, rfl, rfl, fun _ => hv⟩
  | xorc chunk =>
    simp only [exec, execXorc] at h
    split at h
    · obtain ⟨hv, h⟩ := withCore_next h
      cases h
      exact ⟨rfl, rfl, rfl, rfl, rfl, fun _ => hv⟩
    · cases h
  | init key nonce blk =>
    cases h
    exact .refl rfl rfl rfl rfl rfl
  | sched0 | sched1 | sched2 | sched3 | sched4 | sched5 | sched6 | sched7 | cround | dground | dround =>
    exact effect_putX h
  | qr a b c d =>
    simp only [exec, execQr] at h
    split at h
    · exact effect_putX h
    · cases h
  | rounds n =>
    simp only [exec, execRounds] at h
    split at h
    · exact effect_putX h
    · cases h

/-- Words 4 to 11 are the key's bytes, four to a word (spec/10_state.md R19). -/
theorem initState_key_word (key : Key) (nonce blk : Word64) (j : Fin 8) :
    (initState key nonce blk)[4 + j.val] =
      le32dec key[4 * j.val] key[4 * j.val + 1] key[4 * j.val + 2] key[4 * j.val + 3] := by
  match j with
  | 0 | 1 | 2 | 3 | 4 | 5 | 6 | 7 => rfl

end Sys2Proof.Machine
end

section
/-! PROOFS. The statements of the family spec/10_state.md. -/

namespace Sys2Proof.Proofs

open Sys2Proof.Machine Sys2Proof.Safety

/-- Settles O56: a step is RESET, which leaves no core, or it moves the core by blocks, which keep a derived state
derived, or it builds one, which is derived. -/
theorem stepKeepsTheInvariant : Obligations.StepKeepsTheInvariant :=
  fun _ _ hs h => ⟨step_inv hs h, step_params h⟩

/-- Settles O58: only the five host commands have a command word, and each clears or never writes the transients. -/
theorem hostMovesLeaveNoTransients : Obligations.HostMovesLeaveNoTransients :=
  fun _ _ => step_hostLevel

/-- Settles O19: fetching never looks at the session, and every instruction that reads it needs VALID = 1. -/
theorem registersOfNoCoreCannotMatter : Obligations.RegistersOfNoCoreCannotMatter :=
  ⟨⟨rfl, rfl, rfl, rfl, rfl⟩, fun _ _ h => ⟨observe_agree h, step_agree h⟩⟩

/-- Settles O24, by what an instruction that builds nothing, a failed and a successful BUILD do. -/
theorem validIsSetByBuildAlone : Obligations.ValidIsSetByBuildAlone :=
  fun _ _ _ h => ⟨fun hi => (exec_moves_by_blocks h (.inl hi)).1, fun hi hlen => exec_build_valid hi hlen h,
    fun _ hlen => (exec_moves_by_blocks h (.inr hlen)).1⟩

/-- Settles O25: the core moves by blocks, and no block writes the three registers. -/
theorem keyNonceRoundsAreImmutable : Obligations.KeyNonceRoundsAreImmutable := by
  rintro i s t _ h hv rfl hi
  obtain ⟨hvalid, q, hsess⟩ := exec_moves_by_blocks h hi
  obtain ⟨hkey, hnonce, hrounds, -⟩ := advance_iterate q s.session
  exact ⟨_, hvalid.trans hv, hsess, hkey, hnonce, hrounds⟩

/-- Settles O59: the step keeps S derived, and INIT lays the words out. -/
theorem stateLayoutHoldsAfterEveryStep : Obligations.StateLayoutHoldsAfterEveryStep := by
  rintro s t _ hs h hv rfl
  have hderived : t.session.S = initState t.session.KEY t.session.NONCE t.session.CTR := (step_inv hs h).1 hv
  rw [hderived]
  exact ⟨rfl, rfl, rfl, rfl, initState_key_word _ _ _, initState_12 _ _ _, initState_13 _ _ _, initState_14 _ _ _,
    initState_15 _ _ _⟩

/-- Settles O60, with the number of blocks each instruction produces. -/
theorem counterMovesByWholeBlocks : Obligations.CounterMovesByWholeBlocks := by
  rintro i s t _ hi h hv rfl
  have he := exec_effect_blocks hi h
  obtain ⟨-, -, -, hctr⟩ := advance_iterate (blocksProduced i s.DIN) s.session
  refine ⟨blocksProduced i s.DIN, _, he.valid.trans hv, he.session, hctr, advance_iterate_derived _ _, ?ksb, ?xorc,
    ?stream, fun hk hx henc hdec => ?other⟩
  case ksb =>
    rintro rfl
    rfl
  case xorc =>
    rintro chunk rfl
    rfl
  case stream => rintro (rfl | rfl) <;> rfl
  case other =>
    rw [blocksProduced_eq_zero _ hk hx henc hdec]
    exact ⟨rfl, rfl⟩

/-- Settles O13, by the table of R47, variant by variant. -/
theorem variantRoundCounts : Obligations.VariantRoundCounts := by
  refine ⟨by decide, by decide, by decide, by decide, fun r => ?_⟩
  cases r <;> decide

/-- Settles O20: the step is the read itself, which moves at most the place of the next free value. -/
theorem observationHasNoSideEffect : Obligations.ObservationHasNoSideEffect := by
  intro s p rest hseq hhost
  refine ⟨fun h => ?register, fun hp hv => ?free, rfl, rfl, fun hv => ?built, fun hv => ?unbuilt⟩
  case register => rw [step_of_observe hseq hhost, afterRead_eq_self (s := { s with host := rest }) h]
  case free =>
    subst hp
    rw [step_of_observe hseq hhost, afterRead_ctr_of_no_core (s := { s with host := rest }) hv]
  case built => simp [observe, hv]
  case unbuilt => simp [observe, hv]

/-- Settles O57: after reset there is no core, no error and no transient array. -/
theorem resetMeetsTheInvariant : Obligations.ResetMeetsTheInvariant :=
  ⟨fun _ => ⟨inv_of_no_core rfl rfl, rfl, rfl, rfl, rfl, rfl⟩, rfl⟩

end Sys2Proof.Proofs
end

section
/-! PROOFS. Reading bytes and words back from a byte space (spec/20_memory.md R32). -/

namespace Sys2Proof.Machine

/-! A byte write. -/

theorem memRead1_memWrite1 {n : Nat} (sp : Vector Byte n) {i j : Nat} (v : Byte) (hi : i < n) (hj : j < n) :
    memRead1 (memWrite1 sp i v hi) j hj = if j = i then v else memRead1 sp j hj := by
  simp only [memRead1, memWrite1, Vector.getElem_set, eq_comm (a := j)]

/-! A word write: its four bytes one by one, and the bytes outside them. -/

theorem memWrite4_getElem_add {n : Nat} (sp : Vector Byte n) {i k : Nat} (v : Word) (h : i + 4 ≤ n) (hk : k < 4) :
    (memWrite4 sp i v h)[i + k] = (le32enc v)[k] := by
  match k, hk with
  | 0, _ | 1, _ | 2, _ | 3, _ => simp [memWrite4]

theorem memWrite4_getElem_other {n : Nat} (sp : Vector Byte n) {i j : Nat} (v : Word) (h : i + 4 ≤ n) (hj : j < n)
    (hout : ¬ (i ≤ j ∧ j < i + 4)) : (memWrite4 sp i v h)[j] = sp[j] := by
  simp (disch := omega) only [memWrite4, Vector.getElem_set_ne]

theorem memRead1_memWrite4 {n : Nat} (sp : Vector Byte n) {i j : Nat} (v : Word) (h : i + 4 ≤ n) (hj : j < n) :
    memRead1 (memWrite4 sp i v h) j hj =
      if hk : i ≤ j ∧ j < i + 4 then (le32enc v)[j - i] else memRead1 sp j hj := by
  split
  case isTrue hin =>
    obtain ⟨k, rfl⟩ := Nat.exists_eq_add_of_le hin.1
    simp only [memRead1, memWrite4_getElem_add sp v h (Nat.lt_of_add_lt_add_left hin.2), Nat.add_sub_cancel_left]
  case isFalse hout => exact memWrite4_getElem_other sp v h hj hout

/-! A word read is decided by its four bytes. -/

/-- Four bytes that encode `w` are read as `w`, little-endian (R33). -/
theorem memRead4_of_bytes {n : Nat} {sp : Vector Byte n} {i : Nat} (h : i + 4 ≤ n) {w : Word}
    (hbytes : ∀ k (hk : k < 4), sp[i + k] = (le32enc w)[k]) : memRead4 sp i h = w :=
  calc memRead4 sp i h
    _ = le32dec (le32enc w)[0] (le32enc w)[1] (le32enc w)[2] (le32enc w)[3] := by
      rw [← hbytes 0, ← hbytes 1, ← hbytes 2, ← hbytes 3]
      rfl
    _ = w := le32dec_le32enc w

@[simp] theorem memRead4_memWrite4 {n : Nat} (sp : Vector Byte n) {i : Nat} (v : Word) (h : i + 4 ≤ n) :
    memRead4 (memWrite4 sp i v h) i h = v :=
  memRead4_of_bytes h fun _ hk => memWrite4_getElem_add sp v h hk

/-- Byte 4 i + k of a serialised block is byte k of word i (spec/42_keystream_producer.md R78). -/
@[simp] theorem memRead4_serialize (out : Words) (i : Index) : memRead4 (serialize out) (4 * i.val) = out[i] := by
  refine memRead4_of_bytes _ fun k hk => ?_
  have hword : (4 * i.val + k) / 4 = i.val := by omega
  have hbyte : (4 * i.val + k) % 4 = k := by omega
  simp only [serialize_getElem, hword, hbyte, Fin.getElem_fin]

end Sys2Proof.Machine
end

section
/-! PROOFS. The statement of the family spec/20_memory.md. -/

namespace Sys2Proof.Proofs

open Sys2Proof.Machine

/-- Settles O6: a write is known byte by byte, and a word read is decided by the four bytes it names. -/
theorem memoryPrimitivesReadBack : Obligations.MemoryPrimitivesReadBack :=
  ⟨memRead4_serialize, fun _ sp _ => ⟨fun hi v _ hj => memRead1_memWrite1 sp v hi hj,
    fun h v => ⟨memRead4_memWrite4 sp v h, fun _ hj => memRead1_memWrite4 sp v h hj⟩⟩⟩

end Sys2Proof.Proofs
end

section
/-! PROOFS. The fields of command words and schedule entries, the canonical name of an instruction, and what the decoder
accepts (spec/30_encoding.md R46 to R54). -/

namespace Sys2Proof.Machine

open Sys2Proof.Safety

/-! Schedule entries: the fields in numbers, and the word and its fields as inverses (R51). -/

theorem indexField_val (q : BitVec 16) (lo : Nat) : (indexField q lo).val = q.toNat / 2 ^ lo % 16 := by
  simp [indexField, BitVec.extractLsb'_toNat, Nat.shiftRight_eq_div_pow]

theorem indexField_eq {q : BitVec 16} {lo : Nat} {x : Index} (h : q.toNat / 2 ^ lo % 16 = x.val) :
    indexField q lo = x :=
  Fin.ext ((indexField_val q lo).trans h)

theorem entryWord_toNat (a b c d : Index) :
    (entryWord a b c d).toNat = 4096 * a.val + 256 * b.val + 16 * c.val + d.val := by
  simp only [entryWord, append_toNat, BitVec.toNat_ofNat]
  omega

/-- Reading the four fields of an entry gives its indices back. -/
theorem indexField_entryWord (a b c d : Index) :
    indexField (entryWord a b c d) 12 = a ∧ indexField (entryWord a b c d) 8 = b ∧
      indexField (entryWord a b c d) 4 = c ∧ indexField (entryWord a b c d) 0 = d := by
  have hword := entryWord_toNat a b c d
  refine ⟨indexField_eq ?_, indexField_eq ?_, indexField_eq ?_, indexField_eq ?_⟩ <;> omega

/-- Every 16-bit word is the entry of its four fields. -/
theorem entryWord_indexField (q : BitVec 16) :
    entryWord (indexField q 12) (indexField q 8) (indexField q 4) (indexField q 0) = q := by
  apply BitVec.eq_of_toNat_eq
  simp only [entryWord_toNat, indexField_val]
  omega

theorem decodeEntry_entryWord {a b c d : Index} (h : distinctIndices a b c d = true) :
    decodeEntry (entryWord a b c d) = .ok (Instr.qr a b c d).canon := by
  obtain ⟨ha, hb, hc, hd⟩ := indexField_entryWord a b c d
  rw [decodeEntry, ha, hb, hc, hd, if_pos h, Instr.canon]

theorem decodeEntry_entryWord_of_equal {a b c d : Index} (h : distinctIndices a b c d = false) :
    decodeEntry (entryWord a b c d) = .error (.equalIndices (entryWord a b c d)) := by
  obtain ⟨ha, hb, hc, hd⟩ := indexField_entryWord a b c d
  rw [decodeEntry, ha, hb, hc, hd, if_neg (by simp [h])]

/-- An accepted entry is the word of a tuple of different indices, and is answered under the tuple's canonical name. -/
theorem decodeEntry_eq_ok {q : BitVec 16} {i : Instr} (h : decodeEntry q = .ok i) :
    ∃ a b c d, distinctIndices a b c d = true ∧ entryWord a b c d = q ∧ i = (Instr.qr a b c d).canon := by
  unfold decodeEntry at h
  split at h
  case isTrue hdistinct =>
    cases h
    exact ⟨_, _, _, _, hdistinct, entryWord_indexField q, rfl⟩
  case isFalse => cases h

/-! The schedule's entries (R52). -/

theorem schedule_distinct : ∀ p ∈ schedule, distinctIndices p.2.1 p.2.2.1 p.2.2.2.1 p.2.2.2.2 = true := by
  decide

theorem schedule_wellFormed : ∀ p ∈ schedule, WellFormed p.1 := by
  decide

theorem schedule_encode : ∀ p ∈ schedule, encode p.1 = encode (.qr p.2.1 p.2.2.1 p.2.2.2.1 p.2.2.2.2) := by
  decide

theorem schedule_exec (s : State) :
    ∀ p ∈ schedule, exec p.1 s = onArray (quarterRound · p.2.1 p.2.2.1 p.2.2.2.1 p.2.2.2.2) s := by
  simp only [schedule, List.forall_mem_cons]
  exact ⟨rfl, rfl, rfl, rfl, rfl, rfl, rfl, rfl, List.forall_mem_nil _⟩

theorem exec_qr_of_distinct {a b c d : Index} (h : distinctIndices a b c d = true) (s : State) :
    exec (.qr a b c d) s = onArray (quarterRound · a b c d) s := by
  rw [exec, execQr, if_pos h]

/-! The canonical name: an instruction's own, or that of the schedule's entry for its tuple (R52, assumption 7). -/

theorem nameEntry_cases (a b c d : Index) :
    nameEntry a b c d = .qr a b c d ∨ (nameEntry a b c d, a, b, c, d) ∈ schedule := by
  simp only [schedule, List.mem_cons, Prod.mk.injEq]
  unfold nameEntry
  split_ifs <;> simp_all

theorem canon_cases (i : Instr) :
    i.canon = i ∨ ∃ p ∈ schedule, i.canon = p.1 ∧ i = .qr p.2.1 p.2.2.1 p.2.2.2.1 p.2.2.2.2 := by
  unfold Instr.canon
  split
  case h_1 a b c d => exact (nameEntry_cases a b c d).imp_right fun hmem => ⟨_, hmem, rfl, rfl⟩
  case h_2 => exact .inl rfl

/-- The canonical name has the instruction's word. -/
theorem encode_canon (i : Instr) : encode i.canon = encode i := by
  rcases canon_cases i with h | ⟨p, hp, hcanon, rfl⟩
  · rw [h]
  · rw [hcanon, schedule_encode p hp]

theorem wellFormed_canon {i : Instr} (hi : WellFormed i) : WellFormed i.canon := by
  rcases canon_cases i with h | ⟨p, hp, hcanon, -⟩
  · rwa [h]
  · rw [hcanon]
    exact schedule_wellFormed p hp

/-- The canonical name has the instruction's meaning. -/
theorem exec_canon (i : Instr) (s : State) : exec i.canon s = exec i s := by
  rcases canon_cases i with h | ⟨p, hp, hcanon, rfl⟩
  · rw [h]
  · rw [hcanon, schedule_exec s p hp, exec_qr_of_distinct (schedule_distinct p hp)]

/-- An instruction that is no QR on a scheduled tuple is its own canonical name. -/
theorem canon_eq_self {i : Instr}
    (h : ∀ a b c d, i = .qr a b c d → (a, b, c, d) ∉ schedule.map Prod.snd) : i.canon = i := by
  rcases canon_cases i with hself | ⟨p, hp, -, hi⟩
  · exact hself
  · exact absurd (List.mem_map_of_mem hp) (h _ _ _ _ hi)

/-! Command words: the word is known from its fields (R46). -/

theorem eq_commandWord {c : BitVec 8} {op v : Nat} (hop : (opField c).toNat = op) (hz : zField c = 0)
    (hv : (vField c).toNat = v) : c = commandWord (BitVec.ofNat 4 op) (BitVec.ofNat 2 v) := by
  have hz_num : c.toNat / 2 ^ 2 % 2 ^ 2 = 0 := by
    rw [← Nat.shiftRight_eq_div_pow, ← BitVec.extractLsb'_toNat]
    exact congrArg BitVec.toNat hz
  subst hop hv
  apply BitVec.eq_of_toNat_eq
  simp only [commandWord, opField, vField, append_toNat, BitVec.ofNat_eq_ofNat, BitVec.toNat_ofNat,
    BitVec.extractLsb'_toNat, Nat.shiftRight_eq_div_pow]
  omega

/-- An accepted BUILD word has one of three variant selectors (R47, R54). -/
theorem encode_of_decodeBuild {c : BitVec 8} {i : Instr} (hop : (opField c).toNat = 1) (hz : zField c = 0)
    (h : decodeBuild c = .ok i) : encode i = some (.cmd8 c) := by
  unfold decodeBuild at h
  split at h
  case h_1 hv | h_2 hv | h_3 hv =>
    cases h
    rw [eq_commandWord hop hz hv]
    rfl
  case h_4 => cases h

/-- ENCRYPT and DECRYPT are accepted only with both reserved fields 0 (R53). -/
theorem checked_eq_ok {c : BitVec 8} {i j : Instr}
    (h : (if zField c ≠ 0 then .error (.reservedZ c) else if vField c = 0 then .ok j else .error (.reservedV c) :
      Except Reject Instr) = .ok i) : zField c = 0 ∧ (vField c).toNat = 0 ∧ j = i := by
  split_ifs at h with hz hv
  cases h
  exact ⟨not_not.mp hz, congrArg BitVec.toNat hv, rfl⟩

/-- An accepted command word is the word of the command it is decoded to. -/
theorem encode_of_decodeCommand {c : BitVec 8} {i : Instr} (h : decodeCommand c = .ok i) :
    encode i = some (.cmd8 c) := by
  unfold decodeCommand at h
  split at h
  case h_1 hop =>
    split at h
    case isTrue hz => exact encode_of_decodeBuild hop hz h
    case isFalse => cases h
  case h_2 hop | h_3 hop =>
    obtain ⟨hz, hv, rfl⟩ := checked_eq_ok h
    rw [eq_commandWord hop hz hv]
    rfl
  case h_4 => cases h

/-- No instruction but the five host commands has a command word (R45, R53). -/
theorem command_word_mem {c : BitVec 8} {i : Instr} (h : encode i = some (.cmd8 c)) :
    c ∈ ([0x10, 0x11, 0x12, 0x20, 0x30] : List (BitVec 8)) := by
  cases i with
  | build8 | build12 | build20 | encrypt | decrypt =>
    cases h
    decide
  | qr _ _ _ _ | sched0 | sched1 | sched2 | sched3 | sched4 | sched5 | sched6 | sched7 | init _ _ _ | cround | dground
  | dround | rounds _ | ksb | xorc _ | encryptFresh _ | decryptFresh _ => cases h

/-- Any other word is rejected, under one name or another (R53, R54). -/
theorem decodeCommand_of_reserved {c : BitVec 8} (h : c ∉ ([0x10, 0x11, 0x12, 0x20, 0x30] : List (BitVec 8))) :
    ∃ e, decodeCommand c = .error e := by
  cases hdec : decodeCommand c with
  | error e => exact ⟨e, rfl⟩
  | ok i => exact absurd (command_word_mem (encode_of_decodeCommand hdec)) h

/-- The decoder, evaluated on each of the 256 words, accepts five (R53). -/
theorem reserved_word_count :
    ((List.range 256).filter fun n => (decodeCommand (BitVec.ofNat 8 n)).toOption.isNone).length = 251 := by
  decide +kernel

/-! Decoding and encoding are inverses. -/

/-- The word of a well-formed instruction is decoded to its canonical name. -/
theorem decode_of_encode {i : Instr} {w : Code} (hi : WellFormed i) (hw : encode i = some w) :
    decode w = .ok i.canon := by
  cases i with
  | build8 | build12 | build20 | encrypt | decrypt =>
    cases hw
    rfl
  | qr a b c d =>
    cases hw
    exact decodeEntry_entryWord hi
  | sched0 | sched1 | sched2 | sched3 | sched4 | sched5 | sched6 | sched7 =>
    cases hw
    exact decodeEntry_entryWord rfl
  | init _ _ _ | cround | dground | dround | rounds _ | ksb | xorc _ | encryptFresh _ | decryptFresh _ => cases hw

/-- No host command has an operand in its word that could fail a check. -/
theorem wellFormed_of_format_cmd8 {i : Instr} (h : i.format = .cmd8) : WellFormed i := by
  cases i with
  | build8 | build12 | build20 | encrypt | decrypt => rfl
  | qr _ _ _ _ | sched0 | sched1 | sched2 | sched3 | sched4 | sched5 | sched6 | sched7 | init _ _ _ | cround | dground
  | dround | rounds _ | ksb | xorc _ | encryptFresh _ | decryptFresh _ => cases h

/-- An accepted word is the word of a well-formed instruction. -/
theorem encode_of_decode {w : Code} {i : Instr} (h : decode w = .ok i) : WellFormed i ∧ encode i = some w := by
  cases w with
  | cmd8 c => exact ⟨wellFormed_of_format_cmd8 (decodeCommand_format h), encode_of_decodeCommand h⟩
  | qri16 q =>
    obtain ⟨a, b, c, d, hdistinct, rfl, rfl⟩ := decodeEntry_eq_ok h
    exact ⟨wellFormed_canon hdistinct, encode_canon _⟩

end Sys2Proof.Machine
end

section
/-! PROOFS. Steps on a decoded or rejected word, and the commands a pseudo-operation expands to (spec/30_encoding.md
R45, R51, R53, R57). -/

namespace Sys2Proof.Machine

open Sys2Proof.Safety

theorem step_of_refused {s : State} {r : Refusal} (h : fetch s = .refused r) : step s = .refused r := by
  simp only [step, h]

/-- A reserved command word is refused. -/
theorem step_of_rejected_command {s : State} {c : BitVec 8} {k : List Byte} {n : Word64} {d : List Byte}
    {rest : List Request} {e : Reject} (hseq : s.seq = []) (hhost : s.host = .command c k n d :: rest)
    (hdec : decodeCommand c = .error e) : step s = .refused (.undecodable e) :=
  step_of_refused (by rw [fetch_of_host hseq hhost, fetchRequest, hdec, fetchDecoded])

theorem step_of_entry {s : State} {q : BitVec 16} {i : Instr} {rest : List SeqItem} (hseq : s.seq = .entry q :: rest)
    (hdec : decodeEntry q = .ok i) : step s = exec i { s with seq := rest } :=
  step_of_run (by rw [fetch_of_seq hseq, fetchItem, hdec, fetchDecoded])

theorem step_of_rejected_entry {s : State} {q : BitVec 16} {e : Reject} {rest : List SeqItem}
    (hseq : s.seq = .entry q :: rest) (hdec : decodeEntry q = .error e) : step s = .refused (.undecodable e) :=
  step_of_refused (by rw [fetch_of_seq hseq, fetchItem, hdec, fetchDecoded])

/-- What the decoder reads from a word of a format's length is what it answers for the word. -/
theorem decode_of_decodeTableWord {nbits w : Nat} {code : Code} {i : Instr} (hcode : tableCode nbits w = some code)
    (h : decodeTableWord nbits w = some i) : decode code = .ok i := by
  rw [decodeTableWord, hcode, Option.bind_some] at h
  cases hdec : decode code with
  | error e => simp [hdec, Except.toOption] at h
  | ok j => simpa [hdec, Except.toOption] using h

/-! The pseudo-operations (R57). -/

/-- The instruction BUILD.r. -/
def buildInstr : Variant → Instr
  | .r8 => .build8
  | .r12 => .build12
  | .r20 => .build20

theorem exec_buildInstr (r : Variant) (s : State) : exec (buildInstr r) s = build (variantCount r) s := by
  cases r <;> rfl

theorem decodeCommand_buildWord (r : Variant) : decodeCommand (buildWord r) = .ok (buildInstr r) := by
  cases r <;> rfl

theorem exec_encryptFresh (r : Variant) (s : State) :
    exec (.encryptFresh r) s = andThen (build (variantCount r) s) (exec .encrypt) := by
  rw [← execBuild_eq]
  rfl

theorem exec_decryptFresh (r : Variant) (s : State) :
    exec (.decryptFresh r) s = andThen (build (variantCount r) s) (exec .decrypt) := by
  rw [← execBuild_eq]
  rfl

/-- BUILD leaves the host's list and the ports, so the command presented next, with the same operands, runs on the state
BUILD leaves. -/
theorem andThen_build_step {n : RoundCount} {s : State} {c : BitVec 8} {j : Instr} {rest : List Request}
    (hseq : s.seq = []) (hhost : s.host = .command c s.KEYBUF s.NONCE_IN s.DIN :: rest)
    (hdec : decodeCommand c = .ok j) :
    andThen (build n s) step = andThen (build n { s with host := rest }) (exec j) := by
  unfold build
  split
  · cases keyOperand s.KEYBUF with
    | none =>
      exact Proofs.stepRunsThePresentedCommand s.raiseInvalidKeySize c _ _ _ rest j hseq hhost hdec
    | some key =>
      exact Proofs.stepRunsThePresentedCommand (s.install (freshSession n key s.NONCE_IN)) c _ _ _ rest j hseq hhost
        hdec
  · rfl

/-- Two commands with the same operands, the first a BUILD, run by two steps. -/
theorem andThen_step_of_build {s : State} {r : Variant} {key : List Byte} {nonce : Word64} {m : List Byte}
    {c : BitVec 8} {j : Instr} {rest : List Request} (hseq : s.seq = [])
    (hhost : s.host = .command (buildWord r) key nonce m :: .command c key nonce m :: rest)
    (hdec : decodeCommand c = .ok j) :
    andThen (step s) step =
      andThen (build (variantCount r) { s with host := rest, KEYBUF := key, NONCE_IN := nonce, DIN := m })
        (exec j) := by
  rw [Proofs.stepRunsThePresentedCommand s _ _ _ _ _ _ hseq hhost (decodeCommand_buildWord r), exec_buildInstr]
  exact andThen_build_step hseq rfl hdec

/-- BUILD of a count that is offered, with 32 bytes on the key port, constructs a fresh core. -/
theorem build_of_length {n : RoundCount} {s : State} (hd : n.val ∈ s.params.NUMBER_ROUND_DOMAIN)
    (hlen : s.KEYBUF.length = 32) : ∃ c, build n s = .next (s.install c) := by
  rcases build_cases n s with ⟨-, hk, -⟩ | ⟨key, -, -, hb⟩ | ⟨hn, -⟩
  · exact absurd hlen hk
  · exact ⟨_, hb⟩
  · exact absurd hd hn

end Sys2Proof.Machine
end

section
/-! PROOFS. The statements of the family spec/30_encoding.md. -/

namespace Sys2Proof.Proofs

open Sys2Proof.Machine Sys2Proof.Safety

/-- Settles O10: the four fields of an entry are read back, and only a scheduled tuple has another name. -/
theorem decodeOfEncodeIsTheInstruction : Obligations.DecodeOfEncodeIsTheInstruction :=
  ⟨fun _ _ => decode_of_encode, fun _ => canon_eq_self⟩

/-- Settles O8: an accepted command word is the word of one of the five host commands. -/
theorem reservedCommandWordsAreRefused : Obligations.ReservedCommandWordsAreRefused := by
  refine ⟨reserved_word_count, fun s c k n d rest hseq hhost hc => ?_⟩
  obtain ⟨e, hdec⟩ := decodeCommand_of_reserved hc
  exact ⟨e, step_of_rejected_command hseq hhost hdec⟩

/-- Settles O9, by the word and its fields in numbers. -/
theorem scheduleEntryFieldsDecode : Obligations.ScheduleEntryFieldsDecode :=
  fun a b c d => ⟨entryWord_toNat a b c d, decodeEntry_entryWord, decodeEntry_entryWord_of_equal⟩

/-- Settles O11: a word is known from its fields, and a canonical name keeps word and well-formedness. -/
theorem encodeOfDecodeIsTheWord : Obligations.EncodeOfDecodeIsTheWord :=
  fun _ _ => encode_of_decode

/-- Settles O12: a scheduled name and the QR on its tuple are one quarter round. -/
theorem canonicalNameKeepsMeaning : Obligations.CanonicalNameKeepsMeaning :=
  exec_canon

/-- Settles O55: BUILD leaves the second command and its operands where the second step finds them. -/
theorem freshOperationsAreTheirExpansions : Obligations.FreshOperationsAreTheirExpansions := by
  intro s r key nonce m rest hseq
  refine ⟨fun hhost => ?encrypt, fun hhost => ?decrypt⟩
  case encrypt =>
    rw [exec_encryptFresh]
    exact andThen_step_of_build hseq hhost rfl
  case decrypt =>
    rw [exec_decryptFresh]
    exact andThen_step_of_build hseq hhost rfl

/-- Settles O7, word by word. -/
theorem knownWordsDecode : Obligations.KnownWordsDecode :=
  ⟨rfl, rfl, rfl, rfl, rfl, rfl, rfl, rfl, rfl⟩

/-- Settles O15: the fetch takes the item off the list; what it decodes or names is run. -/
theorem stepRunsTheSequencerItem : Obligations.StepRunsTheSequencerItem :=
  fun _ _ => ⟨fun _ _ => step_of_entry, fun _ _ => step_of_rejected_entry,
    fun _ hseq => step_of_run (fetch_of_seq hseq), fun _ hseq => step_of_done (fetch_of_seq hseq)⟩

/-- Settles O16: the placed word is the next request or the next item. -/
theorem stepRunsTheFetchWord : Obligations.StepRunsTheFetchWord := by
  refine fun s w i => ⟨fun h => ?command, fun h => ?entry⟩
  case command =>
    have hdec : decodeCommand (BitVec.ofNat 8 w) = .ok i := decode_of_decodeTableWord (nbits := 8) rfl h
    exact stepRunsThePresentedCommand (s.withFetchWord 8 w) _ _ _ _ s.host i rfl rfl hdec
  case entry =>
    have hdec : decodeEntry (BitVec.ofNat 16 w) = .ok i := decode_of_decodeTableWord (nbits := 16) rfl h
    exact step_of_entry (s := s.withFetchWord 16 w) rfl hdec

/-- Settles O31, entry by entry and index by index. -/
theorem scheduleEntriesAreTheirQuarterRounds : Obligations.ScheduleEntriesAreTheirQuarterRounds :=
  ⟨schedule_exec, by decide, by decide⟩

/-- Settles O54: a 32-byte key gives BUILD a core to install, and with a core and an admitted length the stream runs. -/
theorem freshOperationsBuildAndThenStream : Obligations.FreshOperationsBuildAndThenStream := by
  intro s hlen hadmitted p hp hoffered
  obtain ⟨r, rfl⟩ : ∃ r, p = (r, buildInstr r) := by
    simp only [List.mem_cons, List.not_mem_nil, or_false] at hp
    rcases hp with rfl | rfl | rfl <;> exact ⟨_, rfl⟩
  obtain ⟨c, hbuild⟩ := build_of_length (n := variantCount r) hoffered hlen
  have hstream := streamCombine_of_valid (s := s.install c) rfl hadmitted
  refine ⟨s.install c, _, _, ?build, rfl, hstream, hstream, ?encrypt, ?decrypt⟩
  case build => rw [exec_buildInstr, hbuild]
  case encrypt =>
    rw [exec_encryptFresh, hbuild]
    exact hstream
  case decrypt =>
    rw [exec_decryptFresh, hbuild]
    exact hstream

end Sys2Proof.Proofs
end

section
/-! PROOFS. The halves of a 64-bit value under + 1, and the words of INIT as the block number varies
(spec/40_state_initializer.md R62, R65). -/

namespace Sys2Proof.Machine

/-- A 64-bit value is determined by its halves (R12). -/
theorem eq_iff_lo32_hi32 {v w : Word64} : v = w ↔ lo32 v = lo32 w ∧ hi32 v = hi32 w := by
  refine ⟨fun h => h ▸ ⟨rfl, rfl⟩, fun ⟨hlo, hhi⟩ => BitVec.eq_of_toNat_eq ?_⟩
  rw [← Nat.mod_add_div v.toNat (2 ^ 32), ← Nat.mod_add_div w.toNat (2 ^ 32), ← lo32_toNat, ← lo32_toNat,
    ← hi32_toNat, ← hi32_toNat, hlo, hhi]

/-- Adding 1 to the whole adds 1 to the low half, which may wrap. -/
theorem lo32_add_one (n : Word64) : lo32 (n + 1) = lo32 n + 1 := by
  apply BitVec.eq_of_toNat_eq
  rw [lo32_toNat, BitVec.toNat_add, BitVec.toNat_add, lo32_toNat]
  change (n.toNat + 1) % 2 ^ 64 % 2 ^ 32 = (n.toNat % 2 ^ 32 + 1) % 2 ^ 32
  omega

/-- The low half is all ones exactly when adding 1 carries out of it. -/
theorem lo32_eq_ones_iff (n : Word64) : lo32 n = 0xffffffff ↔ n.toNat % 2 ^ 32 = 2 ^ 32 - 1 := by
  rw [← BitVec.toNat_inj, lo32_toNat]
  rfl

theorem hi32_add_one_of_carry {n : Word64} (h : lo32 n = 0xffffffff) : hi32 (n + 1) = hi32 n + 1 := by
  rw [lo32_eq_ones_iff] at h
  apply BitVec.eq_of_toNat_eq
  rw [hi32_toNat, BitVec.toNat_add, BitVec.toNat_add, hi32_toNat]
  change (n.toNat + 1) % 2 ^ 64 / 2 ^ 32 = (n.toNat / 2 ^ 32 + 1) % 2 ^ 32
  omega

theorem hi32_add_one_of_no_carry {n : Word64} (h : lo32 n ≠ 0xffffffff) : hi32 (n + 1) = hi32 n := by
  rw [Ne, lo32_eq_ones_iff] at h
  apply BitVec.eq_of_toNat_eq
  rw [hi32_toNat, BitVec.toNat_add, hi32_toNat]
  change (n.toNat + 1) % 2 ^ 64 / 2 ^ 32 = n.toNat / 2 ^ 32
  omega

/-- The successor of a word is another word, also at the wrap. -/
theorem ne_add_one (w : Word) : w ≠ w + 1 := by
  rw [Ne, BitVec.self_eq_add_right]
  decide

/-- Adding 1 to the whole changes the high half exactly when the low half carries. -/
theorem hi32_ne_add_one_iff (n : Word64) : hi32 n ≠ hi32 (n + 1) ↔ lo32 n = 0xffffffff := by
  by_cases h : lo32 n = 0xffffffff
  · rw [hi32_add_one_of_carry h]
    exact iff_of_true (ne_add_one (hi32 n)) h
  · rw [hi32_add_one_of_no_carry h]
    exact iff_of_false (not_not_intro rfl) h

/-- The block number stands in words 12 and 13 only (R62). -/
theorem initState_eq_set (key : Key) (nonce m n : Word64) :
    initState key nonce n = ((initState key nonce m).set 12 (lo32 n)).set 13 (hi32 n) := rfl

theorem initState_of_ne_counter (key : Key) (nonce m n : Word64) {i : Index} (h12 : i ≠ 12) (h13 : i ≠ 13) :
    (initState key nonce m)[i] = (initState key nonce n)[i] := by
  have h12' : 12 ≠ i.val := fun h => h12 (Fin.ext h.symm)
  have h13' : 13 ≠ i.val := fun h => h13 (Fin.ext h.symm)
  rw [initState_eq_set key nonce m n, Fin.getElem_fin, Fin.getElem_fin, Vector.getElem_set_ne _ _ h13',
    Vector.getElem_set_ne _ _ h12']

/-- INIT is injective in the block number: words 12 and 13 give its halves back (R65). -/
theorem initState_blk_inj (key : Key) (nonce m n : Word64) :
    initState key nonce m = initState key nonce n ↔ m = n := by
  refine ⟨fun h => eq_iff_lo32_hi32.mpr ⟨?lo, ?hi⟩, fun h => h ▸ rfl⟩
  case lo => rw [← initState_12 key nonce m, h, initState_12]
  case hi => rw [← initState_13 key nonce m, h, initState_13]

end Sys2Proof.Machine
end

section
/-! PROOFS. The statements of the family spec/40_state_initializer.md. -/

namespace Sys2Proof.Proofs

open Sys2Proof.Machine

/-- Settles O26: a key word decodes its four key bytes, and words 12 to 15 are the halves of the operands. -/
theorem initBuildsTheSixteenWords : Obligations.InitBuildsTheSixteenWords := by
  refine fun s key nonce blk => ⟨initState key nonce blk, rfl, rfl, rfl, rfl, rfl, fun j => ?key,
    lo32_toNat blk, hi32_toNat blk, lo32_toNat nonce, hi32_toNat nonce⟩
  case key => rw [initState_key_word, le32dec_toNat]

/-- Settles O27: word 12 is the low half, which + 1 always changes, and word 13 the high half, which the carry alone
changes. -/
theorem consecutiveStatesDifferInTheCounterOnly : Obligations.ConsecutiveStatesDifferInTheCounterOnly := by
  refine fun key nonce n => ⟨?word12, ?word13, fun _ => initState_of_ne_counter key nonce n (n + 1),
    fun m => initState_blk_inj key nonce m n⟩
  case word12 =>
    rw [initState_12, initState_12, lo32_add_one]
    exact ne_add_one (lo32 n)
  case word13 =>
    rw [initState_13, initState_13]
    exact hi32_ne_add_one_iff n

end Sys2Proof.Proofs
end

section
/-! PROOFS. The quarter round as a function on word arrays: the words it writes, its in-place listing, which words it
reads, and its inverse (spec/41_round_engine.md R66, R68, R73). -/

namespace Sys2Proof.Machine

open Sys2Proof.Safety

variable {n : Nat} {a b c d : Fin n}

theorem distinctIndices_iff_nodup (a b c d : Index) : distinctIndices a b c d = true ↔ [a, b, c, d].Nodup := by
  simp [distinctIndices, and_assoc]

theorem ne_of_nodup (h : [a, b, c, d].Nodup) : a ≠ b ∧ a ≠ c ∧ a ≠ d ∧ b ≠ c ∧ b ≠ d ∧ c ≠ d := by
  simpa [and_assoc] using h

/-! The pure form. -/

/-- `quarterRound_other` with the four indices as a list. -/
theorem quarterRound_of_not_mem (x : Vector Word n) {i : Fin n} (hi : i ∉ [a, b, c, d]) :
    (quarterRound x a b c d)[i] = x[i] := by
  simp only [List.mem_cons, List.not_mem_nil, or_false, not_or, ← Fin.val_ne_iff] at hi
  obtain ⟨ha, hb, hc, hd⟩ := hi
  exact quarterRound_other x i.isLt ha hb hc hd

/-- `y` holds the four words that R66's pure form gives on `x`, and the words of `x` elsewhere. -/
def IsPureForm (x y : Vector Word n) (a b c d : Fin n) : Prop :=
  (let a1 := add32 x[a] x[b]
   let d1 := rotl32 (xor32 x[d] a1) 16
   let c1 := add32 x[c] d1
   let b1 := rotl32 (xor32 x[b] c1) 12
   let a2 := add32 a1 b1
   let d2 := rotl32 (xor32 d1 a2) 8
   let c2 := add32 c1 d2
   let b2 := rotl32 (xor32 b1 c2) 7
   y[a] = a2 ∧ y[b] = b2 ∧ y[c] = c2 ∧ y[d] = d2) ∧
  ∀ i : Fin n, i ∉ [a, b, c, d] → y[i] = x[i]

theorem quarterRound_isPureForm (x : Vector Word n) (h : [a, b, c, d].Nodup) :
    IsPureForm x (quarterRound x a b c d) a b c d := by
  obtain ⟨hab, hac, had, hbc, hbd, hcd⟩ := ne_of_nodup h
  refine ⟨?_, fun i => quarterRound_of_not_mem x⟩
  simp [quarterRound, Fin.val_inj, hab.symm, hac.symm, had.symm, hbc.symm, hbd.symm, hcd.symm]

/-- The four words and the frame determine the array. -/
theorem IsPureForm.unique {x y z : Vector Word n} (hy : IsPureForm x y a b c d) (hz : IsPureForm x z a b c d) :
    y = z := by
  obtain ⟨⟨hya, hyb, hyc, hyd⟩, hyother⟩ := hy
  obtain ⟨⟨hza, hzb, hzc, hzd⟩, hzother⟩ := hz
  suffices hword : ∀ i : Fin n, y[i] = z[i] from Vector.ext fun i hi => hword ⟨i, hi⟩
  intro i
  by_cases hi : i ∈ [a, b, c, d]
  · simp only [List.mem_cons, List.not_mem_nil, or_false] at hi
    rcases hi with rfl | rfl | rfl | rfl
    · exact hya.trans hza.symm
    · exact hyb.trans hzb.symm
    · exact hyc.trans hzc.symm
    · exact hyd.trans hzd.symm
  · rw [hyother i hi, hzother i hi]

/-! The in-place listing, assignment by assignment. -/

/-- One assignment of R66's listing: word `i` is combined with word `j`. -/
def combineWord (f : Word → Word → Word) (i j : Fin n) (x : Vector Word n) : Vector Word n := x.set i (f x[i] x[j])

theorem combineWord_same (f : Word → Word → Word) (i j : Fin n) (x : Vector Word n) :
    (combineWord f i j x)[i] = f x[i] x[j] := by
  simp [combineWord]

theorem combineWord_other (f : Word → Word → Word) {i k : Fin n} (hk : k ≠ i) (j : Fin n) (x : Vector Word n) :
    (combineWord f i j x)[k] = x[k] := by
  simp [combineWord, Fin.val_ne_iff.mpr hk.symm]

/-- What an assignment does that is no addition: exclusive or and a rotation by `r`. -/
def xorRotate (r : Nat) (w k : Word) : Word := rotl32 (xor32 w k) r

/-- The eight assignments of R66's listing, the last one first. -/
def assignments (a b c d : Fin n) : Vector Word n → Vector Word n :=
  combineWord (xorRotate 7) b c ∘ combineWord add32 c d ∘ combineWord (xorRotate 8) d a ∘ combineWord add32 a b ∘
    combineWord (xorRotate 12) b c ∘ combineWord add32 c d ∘ combineWord (xorRotate 16) d a ∘ combineWord add32 a b

theorem quarterRoundInPlace_eq_assignments (x : Vector Word n) (a b c d : Fin n) :
    quarterRoundInPlace x a b c d = assignments a b c d x := rfl

theorem assignments_isPureForm (x : Vector Word n) (h : [a, b, c, d].Nodup) :
    IsPureForm x (assignments a b c d x) a b c d := by
  obtain ⟨hab, hac, had, hbc, hbd, hcd⟩ := ne_of_nodup h
  refine ⟨?words, fun i hi => ?other⟩
  case words =>
    simp only [assignments, Function.comp_apply, combineWord_same, combineWord_other, xorRotate, ne_eq,
      not_false_eq_true, and_self, hab, hac, had, hbc, hbd, hcd, hab.symm, hac.symm, had.symm, hbc.symm, hbd.symm,
      hcd.symm]
  case other =>
    simp only [List.mem_cons, List.not_mem_nil, or_false, not_or] at hi
    obtain ⟨ha, hb, hc, hd⟩ := hi
    simp only [assignments, Function.comp_apply, combineWord_other, ne_eq, not_false_eq_true, ha, hb, hc, hd]

theorem quarterRound_eq_assignments (x : Vector Word n) (h : [a, b, c, d].Nodup) :
    quarterRound x a b c d = assignments a b c d x :=
  (quarterRound_isPureForm x h).unique (assignments_isPureForm x h)

/-! Quarter rounds on disjoint words (R68). -/

/-- A word of the result depends on that word and on the four operands alone. -/
theorem quarterRound_congr {x y : Vector Word n} (hquad : ∀ j ∈ [a, b, c, d], x[j] = y[j]) {i : Fin n}
    (hi : x[i] = y[i]) : (quarterRound x a b c d)[i] = (quarterRound y a b c d)[i] := by
  simp only [List.forall_mem_cons, Fin.getElem_fin] at hquad hi
  obtain ⟨ha, hb, hc, hd, -⟩ := hquad
  simp only [quarterRound, Fin.getElem_fin, Vector.getElem_set, ha, hb, hc, hd, hi]

/-- A quarter round elsewhere changes none of the words a quarter round reads. -/
theorem quarterRound_after_disjoint {e f g h : Fin n} (hdisj : List.Disjoint [a, b, c, d] [e, f, g, h])
    (x : Vector Word n) {i : Fin n} (hi : i ∈ [a, b, c, d]) :
    (quarterRound (quarterRound x e f g h) a b c d)[i] = (quarterRound x a b c d)[i] :=
  quarterRound_congr (fun _ hj => quarterRound_of_not_mem x (hdisj hj)) (quarterRound_of_not_mem x (hdisj hi))

/-- A word belongs to the first tuple, to the second, or to neither. -/
theorem quarterRound_comm_of_disjoint {e f g h : Fin n} (hdisj : List.Disjoint [a, b, c, d] [e, f, g, h])
    (x : Vector Word n) :
    quarterRound (quarterRound x a b c d) e f g h = quarterRound (quarterRound x e f g h) a b c d := by
  suffices hword : ∀ i : Fin n, (quarterRound (quarterRound x a b c d) e f g h)[i] =
      (quarterRound (quarterRound x e f g h) a b c d)[i] from Vector.ext fun i hi => hword ⟨i, hi⟩
  intro i
  by_cases hleft : i ∈ [a, b, c, d]
  · rw [quarterRound_of_not_mem _ (hdisj hleft), quarterRound_after_disjoint hdisj x hleft]
  by_cases hright : i ∈ [e, f, g, h]
  · rw [quarterRound_of_not_mem _ hleft, quarterRound_after_disjoint hdisj.symm x hright]
  · simp only [quarterRound_of_not_mem _ hleft, quarterRound_of_not_mem _ hright]

/-! The assignments can be run backwards (R73). -/

theorem combineWord_cancel {f g : Word → Word → Word} (hfg : ∀ w k, g (f w k) k = w) {i j : Fin n} (hij : i ≠ j)
    (x : Vector Word n) : combineWord g i j (combineWord f i j x) = x := by
  simp [combineWord, Fin.val_ne_iff.mpr hij, hfg]

/-- An assignment whose operation can be undone, knowing the other operand, can be undone. -/
theorem combineWord_bijective {f g : Word → Word → Word} (hfg : ∀ w k, g (f w k) k = w)
    (hgf : ∀ w k, f (g w k) k = w) {i j : Fin n} (hij : i ≠ j) : Function.Bijective (combineWord f i j) :=
  Function.bijective_iff_has_inverse.mpr ⟨combineWord g i j, combineWord_cancel hfg hij, combineWord_cancel hgf hij⟩

theorem combineWord_add32_bijective {i j : Fin n} (hij : i ≠ j) : Function.Bijective (combineWord add32 i j) :=
  combineWord_bijective (g := fun w k => w - k) BitVec.add_sub_cancel BitVec.sub_add_cancel hij

/-- A further rotation by `32 - r` brings every bit back (R8). -/
theorem rotl32_rotl32_cancel (x : Word) {r : Nat} (hpos : 0 < r) (hr : r < 32) :
    rotl32 (rotl32 x r) (32 - r) = x := by
  refine BitVec.eq_of_getLsbD_eq fun i hi => ?_
  have hback : ((i + r) % 32 + (32 - r)) % 32 = i := by omega
  calc (rotl32 (rotl32 x r) (32 - r)).getLsbD i
    _ = (rotl32 (rotl32 x r) (32 - r)).getLsbD (((i + r) % 32 + (32 - r)) % 32) := by rw [hback]
    _ = (rotl32 x r).getLsbD ((i + r) % 32) := rotl32_getLsbD _ (by omega) (by omega)
    _ = x.getLsbD i := rotl32_getLsbD x hr hi

theorem combineWord_xorRotate_bijective {r : Nat} (hpos : 0 < r) (hr : r < 32) {i j : Fin n} (hij : i ≠ j) :
    Function.Bijective (combineWord (xorRotate r) i j) := by
  refine combineWord_bijective (g := fun w k => xor32 (rotl32 w (32 - r)) k) (fun w k => ?_) (fun w k => ?_) hij
  · rw [xorRotate, rotl32_rotl32_cancel _ hpos hr, xor32_xor32_cancel]
  · have hback : rotl32 (rotl32 w (32 - r)) (32 - (32 - r)) = w := rotl32_rotl32_cancel w (by omega) (by omega)
    rw [Nat.sub_sub_self hr.le] at hback
    rw [xorRotate, xor32_xor32_cancel, hback]

theorem assignments_bijective (h : [a, b, c, d].Nodup) : Function.Bijective (assignments a b c d) := by
  obtain ⟨hab, -, had, hbc, -, hcd⟩ := ne_of_nodup h
  have hadd_ab := combineWord_add32_bijective hab
  have hadd_cd := combineWord_add32_bijective hcd
  have hrot_da (r : Nat) (hpos : 0 < r) (hr : r < 32) := combineWord_xorRotate_bijective hpos hr had.symm
  have hrot_bc (r : Nat) (hpos : 0 < r) (hr : r < 32) := combineWord_xorRotate_bijective hpos hr hbc
  exact (hrot_bc 7 (by decide) (by decide)).comp <| hadd_cd.comp <| (hrot_da 8 (by decide) (by decide)).comp <|
    hadd_ab.comp <| (hrot_bc 12 (by decide) (by decide)).comp <| hadd_cd.comp <|
    (hrot_da 16 (by decide) (by decide)).comp hadd_ab

theorem quarterRound_bijective (h : [a, b, c, d].Nodup) :
    Function.Bijective fun x : Vector Word n => quarterRound x a b c d := by
  simp only [quarterRound_eq_assignments _ h]
  exact assignments_bijective h

theorem columnHalf_bijective : Function.Bijective columnHalf :=
  (quarterRound_bijective (a := 3) (b := 7) (c := 11) (d := 15) (by decide)).comp <|
    (quarterRound_bijective (a := 2) (b := 6) (c := 10) (d := 14) (by decide)).comp <|
    (quarterRound_bijective (a := 1) (b := 5) (c := 9) (d := 13) (by decide)).comp <|
    quarterRound_bijective (a := 0) (b := 4) (c := 8) (d := 12) (by decide)

theorem diagonalHalf_bijective : Function.Bijective diagonalHalf :=
  (quarterRound_bijective (a := 3) (b := 4) (c := 9) (d := 14) (by decide)).comp <|
    (quarterRound_bijective (a := 2) (b := 7) (c := 8) (d := 13) (by decide)).comp <|
    (quarterRound_bijective (a := 1) (b := 6) (c := 11) (d := 12) (by decide)).comp <|
    quarterRound_bijective (a := 0) (b := 5) (c := 10) (d := 15) (by decide)

theorem doubleRound_bijective : Function.Bijective doubleRound :=
  diagonalHalf_bijective.comp columnHalf_bijective

theorem doubleRounds_bijective (k : Nat) : Function.Bijective (doubleRounds k) := by
  induction k with
  | zero => exact Function.bijective_id
  | succ k ih => exact ih.comp doubleRound_bijective

end Sys2Proof.Machine
end

section
/-! PROOFS. The instructions of the Round Engine as functions on the operand array, alone and one after another
(spec/41_round_engine.md R66 to R73). -/

namespace Sys2Proof.Machine

open Sys2Proof.Safety

theorem roundCountOk_iff (n : Nat) : roundCountOk n = true ↔ 0 < n ∧ n % 2 = 0 := by
  simp [roundCountOk]

theorem exec_qr_of_equal {a b c d : Index} (h : distinctIndices a b c d = false) (s : State) :
    exec (.qr a b c d) s = .refused .equalIndices := by
  rw [exec, execQr, if_neg (by simp [h])]

theorem exec_rounds_of_not_ok {n : Nat} (h : ¬ roundCountOk n = true) (s : State) :
    exec (.rounds n) s = .refused (.roundCount n) := by
  rw [exec, execRounds, if_neg h]

/-- An instruction that applies `f` to the operand array, in every state, and does nothing else. -/
def ActsOnArray (i : Instr) (f : Words → Words) : Prop := ∀ s, exec i s = onArray f s

theorem actsOnArray_qr {a b c d : Index} (h : distinctIndices a b c d = true) :
    ActsOnArray (.qr a b c d) (quarterRound · a b c d) :=
  exec_qr_of_distinct h

theorem actsOnArray_rounds {n : Nat} (h : roundCountOk n = true) : ActsOnArray (.rounds n) (runRounds n) := by
  intro s
  rw [exec, execRounds, if_pos h]

theorem entry_actsBijectively {i : Instr} (hi : i ∈ schedule.map Prod.fst) :
    ∃ f, Function.Bijective f ∧ ActsOnArray i f := by
  obtain ⟨p, hp, rfl⟩ := List.mem_map.mp hi
  exact ⟨_, quarterRound_bijective ((distinctIndices_iff_nodup _ _ _ _).mp (schedule_distinct p hp)),
    fun s => schedule_exec s p hp⟩

/-- Each instruction of the Round Engine, its operands well formed, acts on the array by a bijection. -/
theorem roundEngine_actsBijectively {i : Instr} (hwf : WellFormed i)
    (hi : i.format = .qri16 ∨ i ∈ [Instr.cround, .dground, .dround] ∨ ∃ n, i = .rounds n) :
    ∃ f, Function.Bijective f ∧ ActsOnArray i f := by
  cases i with
  | qr a b c d => exact ⟨_, quarterRound_bijective ((distinctIndices_iff_nodup a b c d).mp hwf), actsOnArray_qr hwf⟩
  | sched0 | sched1 | sched2 | sched3 | sched4 | sched5 | sched6 | sched7 =>
    exact entry_actsBijectively (by decide)
  | cround => exact ⟨columnHalf, columnHalf_bijective, fun _ => rfl⟩
  | dground => exact ⟨diagonalHalf, diagonalHalf_bijective, fun _ => rfl⟩
  | dround => exact ⟨doubleRound, doubleRound_bijective, fun _ => rfl⟩
  | rounds n => exact ⟨runRounds n, doubleRounds_bijective (n / 2), actsOnArray_rounds hwf⟩
  | build8 | build12 | build20 | encrypt | decrypt | init _ _ _ | ksb | xorc _ | encryptFresh _ | decryptFresh _ =>
    simp [Instr.format] at hi

/-- An instruction that acts by `f` answers the array `y` on exactly the arrays that `f` maps to `y`. -/
theorem ActsOnArray.exec_eq_next_iff {i : Instr} {f : Words → Words} (h : ActsOnArray i f) (s : State) (x y : Words) :
    exec i { s with X := x } = .next { s with X := y } ↔ f x = y := by
  rw [h]
  exact ⟨fun heq => congrArg State.X (Host.Outcome.next.inj heq), fun heq => heq ▸ rfl⟩

theorem roundEngine_existsUnique {i : Instr} (hwf : WellFormed i)
    (hi : i.format = .qri16 ∨ i ∈ [Instr.cround, .dground, .dround] ∨ ∃ n, i = .rounds n) (s : State) (y : Words) :
    ∃! x, exec i { s with X := x } = .next { s with X := y } := by
  obtain ⟨f, hf, hacts⟩ := roundEngine_actsBijectively hwf hi
  simp only [hacts.exec_eq_next_iff]
  exact hf.existsUnique y

/-! One after another. -/

/-- A list of instructions that, run in order, applies `f` to the operand array and does nothing else. -/
def RunsOnArray (l : List Instr) (f : Words → Words) : Prop := ∀ s, runAll l s = onArray f s

theorem RunsOnArray.nil : RunsOnArray [] id := fun _ => rfl

theorem RunsOnArray.cons {i : Instr} {l : List Instr} {f g : Words → Words} (hi : ActsOnArray i f)
    (hl : RunsOnArray l g) : RunsOnArray (i :: l) (g ∘ f) := by
  intro s
  rw [runAll, hi s, onArray_eq, andThen_of_next, hl]
  rfl

theorem runAll_append (l m : List Instr) (s : State) : runAll (l ++ m) s = andThen (runAll l s) (runAll m) := by
  induction l generalizing s with
  | nil => rfl
  | cons i l ih =>
    rw [List.cons_append, runAll, runAll]
    cases exec i s with
    | next t => exact ih t
    | fault e | refused e => rfl

theorem RunsOnArray.append {l m : List Instr} {f g : Words → Words} (hl : RunsOnArray l f) (hm : RunsOnArray m g) :
    RunsOnArray (l ++ m) (g ∘ f) := by
  intro s
  rw [runAll_append, hl s, onArray_eq, andThen_of_next, hm]
  rfl

/-- Scheduled names may stand for their quarter rounds (spec/30_encoding.md R52). -/
theorem RunsOnArray.map_canon {l : List Instr} {f : Words → Words} (hl : RunsOnArray l f) :
    RunsOnArray (l.map Instr.canon) f := by
  intro s
  rw [← hl s]
  clear hl
  induction l generalizing s with
  | nil => rfl
  | cons i l ih =>
    rw [List.map_cons, runAll, runAll, exec_canon]
    exact congrArg (andThen (exec i s)) (funext ih)

theorem runsOnArray_column_qrs :
    RunsOnArray [.qr 0 4 8 12, .qr 1 5 9 13, .qr 2 6 10 14, .qr 3 7 11 15] columnHalf :=
  .cons (actsOnArray_qr rfl) <| .cons (actsOnArray_qr rfl) <| .cons (actsOnArray_qr rfl) <|
    .cons (actsOnArray_qr rfl) .nil

theorem runsOnArray_diagonal_qrs :
    RunsOnArray [.qr 0 5 10 15, .qr 1 6 11 12, .qr 2 7 8 13, .qr 3 4 9 14] diagonalHalf :=
  .cons (actsOnArray_qr rfl) <| .cons (actsOnArray_qr rfl) <| .cons (actsOnArray_qr rfl) <|
    .cons (actsOnArray_qr rfl) .nil

theorem runsOnArray_halves : RunsOnArray [.cround, .dground] doubleRound :=
  .cons (f := columnHalf) (fun _ => rfl) <| .cons (f := diagonalHalf) (fun _ => rfl) .nil

theorem runsOnArray_schedule :
    RunsOnArray [.sched0, .sched1, .sched2, .sched3, .sched4, .sched5, .sched6, .sched7] doubleRound :=
  (runsOnArray_column_qrs.append runsOnArray_diagonal_qrs).map_canon

theorem runsOnArray_replicate_dround (k : Nat) : RunsOnArray (List.replicate k .dround) (doubleRounds k) := by
  induction k with
  | zero => exact .nil
  | succ k ih => exact .cons (f := doubleRound) (fun _ => rfl) ih

theorem runsOnArray_qr_pair {a b c d e f g h : Index} (hleft : [a, b, c, d].Nodup) (hright : [e, f, g, h].Nodup) :
    RunsOnArray [.qr a b c d, .qr e f g h] ((quarterRound · e f g h) ∘ (quarterRound · a b c d)) :=
  .cons (actsOnArray_qr ((distinctIndices_iff_nodup a b c d).mpr hleft)) <|
    .cons (actsOnArray_qr ((distinctIndices_iff_nodup e f g h).mpr hright)) .nil

end Sys2Proof.Machine
end

section
/-! PROOFS. The keystream against two inputs of one length (spec/41_round_engine.md R72, spec/20_memory.md R44). -/

namespace Sys2Proof.Machine

/-- Two bytes combined with one keystream byte differ where the bytes do. -/
theorem xor8_xor8_xor8 (u v k : Byte) : xor8 (xor8 u k) (xor8 v k) = xor8 u v := by
  rw [xor8, xor8, xor8, xor8, BitVec.xor_assoc, BitVec.xor_comm v, ← BitVec.xor_assoc k, BitVec.xor_self,
    BitVec.zero_xor]

/-- Two chunks combined with one block differ where the chunks do. -/
theorem zipWith_xor8_combineChunk {u : List Byte} (v : List Byte) (ks : Block) (hu : u.length ≤ 64) :
    List.zipWith xor8 (combineChunk u ks) (combineChunk v ks) = List.zipWith xor8 u v := by
  refine List.ext_getElem ?length fun i _ _ => ?byte
  case length =>
    simp only [List.length_zipWith, combineChunk_length]
    omega
  case byte => simp only [combineChunk, List.getElem_zipWith, xor8_xor8_xor8]

theorem zipWith_xor8_combine (q : Nat) (c : Session) {d1 d2 : List Byte} (hlen : d1.length = d2.length)
    (hq : d1.length ≤ 64 * q) :
    List.zipWith xor8 (combine q c d1).2 (combine q c d2).2 = List.zipWith xor8 d1 d2 := by
  induction q generalizing c d1 d2 with
  | zero =>
    obtain rfl : d1 = [] := List.length_eq_zero_iff.mp (by omega)
    rfl
  | succ q ih =>
    have hfirst : (firstChunk d1).length ≤ 64 := List.length_take_le 64 d1
    have hchunks : (combineChunk (firstChunk d1) (keystreamBlock c)).length =
        (combineChunk (firstChunk d2) (keystreamBlock c)).length := by
      simp [firstChunk, hlen]
    have hrest : (afterChunk d1).length = (afterChunk d2).length := by simp [afterChunk, hlen]
    have hbound : (afterChunk d1).length ≤ 64 * q := by
      rw [afterChunk, List.length_drop]
      omega
    rw [combine_succ, combine_succ, List.zipWith_append hchunks, zipWith_xor8_combineChunk _ _ hfirst,
      ih _ hrest hbound, firstChunk, firstChunk, afterChunk, afterChunk, ← List.take_zipWith, ← List.drop_zipWith,
      List.take_append_drop]

theorem le_mul_chunkCount (n : Nat) : n ≤ 64 * chunkCount n := by
  rw [chunkCount]
  omega

end Sys2Proof.Machine
end

section
/-! PROOFS. The statements of the family spec/41_round_engine.md. -/

namespace Sys2Proof.Proofs

open Sys2Proof.Machine Sys2Proof.Safety

/-- Settles O28: the quarter round is the pure form on X. -/
theorem quarterRoundWritesItsFourWords : Obligations.QuarterRoundWritesItsFourWords := by
  intro s a b c d h
  obtain ⟨hwords, hother⟩ := quarterRound_isPureForm s.X ((distinctIndices_iff_nodup a b c d).mp h)
  exact ⟨_, exec_qr_of_distinct h s, hwords, fun i ha hb hc hd => hother i (by simp [ha, hb, hc, hd])⟩

/-- Settles O29: the eight assignments leave the four words of the pure form, and no array but one does. -/
theorem quarterRoundIsTheInPlaceListing : Obligations.QuarterRoundIsTheInPlaceListing :=
  fun _ x a b c d h =>
    (quarterRound_eq_assignments x h).trans (quarterRoundInPlace_eq_assignments x a b c d).symm

/-- Settles O32: every entry acts on the array, so entries run in order compose. -/
theorem halfAndDoubleRoundsRunTheSchedule : Obligations.HalfAndDoubleRoundsRunTheSchedule :=
  fun s => ⟨⟨columnHalf s.X, rfl, runsOnArray_column_qrs s⟩, ⟨diagonalHalf s.X, rfl, runsOnArray_diagonal_qrs s⟩,
    ⟨doubleRound s.X, rfl, runsOnArray_halves s, runsOnArray_schedule s⟩⟩

/-- Settles O33: neither quarter round reads or writes a word of the other. -/
theorem disjointQuarterRoundsCommute : Obligations.DisjointQuarterRoundsCommute := by
  intro s a b c d e f g h hnodup
  obtain ⟨hleft, hright, hdisj⟩ := (List.nodup_append' (l₁ := [a, b, c, d])).mp hnodup
  rw [runsOnArray_qr_pair hleft hright, runsOnArray_qr_pair hright hleft]
  simp only [onArray_eq, Function.comp_apply, quarterRound_comm_of_disjoint hdisj]

/-- Settles O34, by induction on the number of double rounds. -/
theorem roundsRunsHalfAsManyDoubleRounds : Obligations.RoundsRunsHalfAsManyDoubleRounds :=
  fun s n hpos heven => ⟨runRounds n s.X, actsOnArray_rounds ((roundCountOk_iff n).mpr ⟨hpos, heven⟩) s,
    runsOnArray_replicate_dround (n / 2) s⟩

/-- Settles O37: each of the eight assignments can be undone, so every procedure made of quarter rounds can. -/
theorem roundEngineIsBijective : Obligations.RoundEngineIsBijective := by
  refine ⟨fun _ _ _ _ _ => quarterRound_bijective, fun s y => ⟨fun a b c d h => ?qr, fun i hi => ?half,
    fun n hpos heven => ?rounds⟩⟩
  case qr => exact roundEngine_existsUnique (i := .qr a b c d) h (.inl rfl) s y
  case half =>
    have hwf : ∀ j ∈ [Instr.cround, .dground, .dround], WellFormed j := by decide
    exact roundEngine_existsUnique (hwf i hi) (.inr (.inl hi)) s y
  case rounds =>
    have hwf : WellFormed (.rounds n) := (roundCountOk_iff n).mpr ⟨hpos, heven⟩
    exact roundEngine_existsUnique hwf (.inr (.inr ⟨n, rfl⟩)) s y

/-- Settles O52: chunk by chunk, both inputs meet one block, and the session moves by the number of chunks. -/
theorem keystreamIsIndependentOfTheData : Obligations.KeystreamIsIndependentOfTheData := by
  rintro s _ d1 d2 hv rfl hlen hadmitted
  refine ⟨_, _, streamCombine_of_valid (s := { s with DIN := d1 }) hv hadmitted,
    streamCombine_of_valid (s := { s with DIN := d2 }) hv (hlen ▸ hadmitted), rfl, ?session, ?outputs⟩
  case session => simp only [State.finish_session, combine_session, hlen]
  case outputs =>
    simp only [State.finish_DOUT, ← hlen]
    exact zipWith_xor8_combine _ _ hlen (le_mul_chunkCount _)

/-- Settles O30: the index test decides, and each scheduled tuple passes it. -/
theorem equalIndicesAreRefused : Obligations.EqualIndicesAreRefused :=
  ⟨fun s _ _ _ _ h => exec_qr_of_equal h s, schedule_distinct⟩

/-- Settles O35: such a count fails the test of ROUNDS. -/
theorem oddRoundCountsAreRefused : Obligations.OddRoundCountsAreRefused := by
  intro s n h
  refine exec_rounds_of_not_ok (fun hok => ?_) s
  rw [roundCountOk_iff] at hok
  omega

/-- Settles O36: each instruction of the Round Engine acts on the array in every state. -/
theorem roundEngineRunsInEveryState : Obligations.RoundEngineRunsInEveryState := by
  intro s i hwf hi
  obtain ⟨f, -, hacts⟩ := roundEngine_actsBijectively hwf hi
  exact ⟨f s.X, hacts s⟩

end Sys2Proof.Proofs
end

section
/-! PROOFS. One KSB with a core present, and the words and bytes of its block in numbers
(spec/42_keystream_producer.md R74 to R80). -/

namespace Sys2Proof.Machine

open Sys2Proof.Safety

/-- With a core KSB completes: it produces one block of the session as it stands (R74). -/
theorem exec_ksb_of_valid {s : State} (h : s.VALID = 1) : exec .ksb s = .next (s.putBlock s.session) := by
  rw [exec, execKsb, withCore_of_valid h]

/-- Whatever `S` was before the block, the one recomputed after it is derived (R77). -/
theorem advance_derived (c : Session) : Derived (advance c) := rfl

/-- The feed-forward adds the state as it was before the rounds (R75, spec/90_conflicts.md C1). -/
theorem blockWords_getElem_toNat (c : Session) {i : Nat} (hi : i < 16) :
    (blockWords c)[i].toNat = (c.S[i].toNat + (mixedCopy c)[i].toNat) % 2 ^ 32 := by
  rw [blockWords, feedForward_getElem c.S (mixedCopy c) hi, add32, BitVec.toNat_add]

theorem serialize_getElem_toNat (out : Words) {i : Nat} (hi : i < 64) :
    (serialize out)[i].toNat = out[i / 4].toNat / 2 ^ (8 * (i % 4)) % 256 := by
  rw [serialize_getElem out hi, le32enc_getElem_toNat _ (Nat.mod_lt i (by decide))]

/-- The block of a derived state is the closed form at its counter (R80). -/
theorem keystreamBlock_getElem_of_derived {c : Session} (h : Derived c) (i : Fin 64) :
    (keystreamBlock c)[i] = blockByte c.KEY c.NONCE c.ROUNDS c.CTR i := by
  apply BitVec.eq_of_toNat_eq
  rw [Fin.getElem_fin, keystreamBlock, serialize_getElem_toNat (blockWords c) i.isLt, blockWords_getElem_toNat,
    mixedCopy, h]
  rfl

end Sys2Proof.Machine
end

section
/-! PROOFS. The statements of the family spec/42_keystream_producer.md. -/

namespace Sys2Proof.Proofs

open Sys2Proof.Machine Sys2Proof.Safety

/-- Settles O38: the working copy is what ROUNDS leaves of `S`, and the sum and its bytes are read off in numbers. -/
theorem ksbProducesOneBlock : Obligations.KsbProducesOneBlock := by
  rintro s c hv rfl
  exact ⟨_, _, _, exec_ksb_of_valid hv, actsOnArray_rounds s.session.ROUNDS.property { s with X := s.session.S },
    fun i => blockWords_getElem_toNat s.session i.isLt, fun i => serialize_getElem_toNat _ i.isLt⟩

/-- Settles O39: words 12 and 13 are the halves of the counter plus 1, and the high half takes the low half's carry. -/
theorem ksbCountsAcrossTheTwoWords : Obligations.KsbCountsAcrossTheTwoWords := by
  rintro s c hv rfl
  refine ⟨_, _, exec_ksb_of_valid hv, hv, rfl, ?_⟩
  simp only [State.putBlock_session, advance_CTR, advance_S, initState_12, initState_13, true_and]
  refine ⟨BitVec.toNat_add _ _, fun hcarry => ⟨?low, hi32_add_one_of_carry hcarry⟩,
    fun hno => ⟨lo32_add_one _, hi32_add_one_of_no_carry hno⟩, fun hctr => ?worked⟩
  case low =>
    rw [lo32_add_one, hcarry]
    decide
  case worked =>
    rw [hctr]
    decide

/-- Settles O40: the block of a derived state is the closed form, and the session moves by one block. -/
theorem ksbClosedForm : Obligations.KsbClosedForm := by
  rintro s c hv rfl hderived
  exact ⟨_, _, exec_ksb_of_valid hv, rfl, keystreamBlock_getElem_of_derived hderived, hv, rfl⟩

/-- Settles O41: the counter wraps to 0, and the state recomputed there is derived, so the next block is the closed
form at 0. -/
theorem counterWrapRepeatsTheKeystream : Obligations.CounterWrapRepeatsTheKeystream := by
  rintro s c hv rfl hlast
  have hzero : (advance s.session).CTR = 0 := by
    rw [advance_CTR, hlast]
    decide
  refine ⟨_, _, _, _, exec_ksb_of_valid hv, hv, rfl, hzero, rfl,
    exec_ksb_of_valid (s := s.putBlock s.session) hv, rfl, fun i => ?block⟩
  case block =>
    rw [← hzero]
    exact keystreamBlock_getElem_of_derived (advance_derived s.session) i

end Sys2Proof.Proofs
end

section
/-! PROOFS. The keystream as one sequence of bytes, and the outputs of XORC, ENCRYPT and DECRYPT in terms of it
(spec/43_stream_combiner.md R82 to R88). -/

namespace Sys2Proof.Machine

open Sys2Proof.Safety

/-- Byte `i` of the keystream of a session: byte `i mod 64` of the block it produces after `i / 64` others (R84). -/
def keystreamByte (c : Session) (i : Nat) : Byte :=
  (keystreamBlock ((advance)^[i / 64] c))[i % 64]

/-- The first 64 bytes of the keystream are the next block. -/
theorem keystreamByte_of_lt (c : Session) {i : Nat} (hi : i < 64) : keystreamByte c i = (keystreamBlock c)[i] := by
  simp only [keystreamByte, Nat.div_eq_of_lt hi, Nat.mod_eq_of_lt hi, Function.iterate_zero, id]

/-- After `q` blocks the keystream continues 64 `q` bytes on. -/
theorem keystreamByte_iterate (q : Nat) (c : Session) (i : Nat) :
    keystreamByte ((advance)^[q] c) i = keystreamByte c (i + 64 * q) := by
  have hdiv : (i + 64 * q) / 64 = i / 64 + q := by omega
  have hmod : (i + 64 * q) % 64 = i % 64 := by omega
  simp only [keystreamByte, hdiv, hmod, Function.iterate_add_apply]

/-- `q` blocks of a derived session: the counter counts them, and `S` is INIT of it (R84). -/
theorem advance_iterate_of_derived (q : Nat) {c : Session} (h : Derived c) :
    (advance)^[q] c = { c with
      CTR := c.CTR + BitVec.ofNat 64 q
      S := initState c.KEY c.NONCE (c.CTR + BitVec.ofNat 64 q) } := by
  obtain ⟨hkey, hnonce, hrounds, hctr⟩ := advance_iterate q c
  have hS : ((advance)^[q] c).S = initState c.KEY c.NONCE (c.CTR + BitVec.ofNat 64 q) := by
    rw [advance_iterate_derived q c h, hkey, hnonce, hctr]
  rw [← hS, ← hctr, ← hkey, ← hnonce, ← hrounds]

/-- The keystream of a derived session, by the closed form of each block. -/
theorem keystreamByte_of_derived {c : Session} (h : Derived c) (i : Nat) :
    keystreamByte c i =
      blockByte c.KEY c.NONCE c.ROUNDS (c.CTR + BitVec.ofNat 64 (i / 64)) ⟨i % 64, Nat.mod_lt _ (by decide)⟩ := by
  obtain ⟨hkey, hnonce, hrounds, hctr⟩ := advance_iterate (i / 64) c
  have hblock := keystreamBlock_getElem_of_derived (advance_iterate_derived (i / 64) c h)
    ⟨i % 64, Nat.mod_lt _ (by decide)⟩
  rwa [hkey, hnonce, hrounds, hctr] at hblock

/-! Bytes against the keystream. -/

/-- A sequence of bytes, each combined with the keystream byte at its position. -/
def xorStream (c : Session) (din : List Byte) : List Byte :=
  din.mapIdx fun i b => xor8 b (keystreamByte c i)

@[simp] theorem xorStream_length (c : Session) (din : List Byte) : (xorStream c din).length = din.length :=
  List.length_mapIdx

theorem xorStream_getElem? (c : Session) {din : List Byte} {i : Nat} (hi : i < din.length) :
    (xorStream c din)[i]? = some (din[i] ^^^ keystreamByte c i) := by
  rw [xorStream, List.getElem?_mapIdx, List.getElem?_eq_getElem hi]
  rfl

/-- The round trip: each byte meets its keystream byte twice (spec/43_stream_combiner.md R88). -/
theorem xorStream_xorStream (c : Session) (din : List Byte) : xorStream c (xorStream c din) = din := by
  refine List.ext_getElem (by simp) fun i _ _ => ?_
  simp only [xorStream, List.getElem_mapIdx, xor8_xor8_cancel]

/-- Behind `q` full chunks the input meets the keystream of the session `q` blocks on. -/
theorem xorStream_append {m1 : List Byte} {q : Nat} (c : Session) (m2 : List Byte) (hq : m1.length = 64 * q) :
    xorStream c (m1 ++ m2) = xorStream c m1 ++ xorStream ((advance)^[q] c) m2 := by
  simp only [xorStream, List.mapIdx_append, hq, keystreamByte_iterate]

/-- One chunk against one block (R83). -/
theorem combineChunk_eq_xorStream (c : Session) {chunk : List Byte} (h : chunk.length ≤ 64) :
    combineChunk chunk (keystreamBlock c) = xorStream c chunk := by
  refine List.ext_getElem (by simpa using h) fun i _ hi => ?_
  have hi64 : i < 64 := by rw [xorStream_length] at hi; omega
  simp [combineChunk, xorStream, keystreamByte_of_lt c hi64]

/-- Chunk by chunk, enough blocks combine the input with the keystream; what is left of the last block is dropped
(R82, R87). -/
theorem combine_eq_xorStream {q : Nat} (c : Session) {din : List Byte} (hq : din.length ≤ 64 * q) :
    (combine q c din).2 = xorStream c din := by
  induction q generalizing c din with
  | zero =>
    obtain rfl : din = [] := List.length_eq_zero_iff.mp (by omega)
    rfl
  | succ q ih =>
    have hfirst : (firstChunk din).length ≤ 64 := List.length_take_le 64 din
    have hrest : (afterChunk din).length ≤ 64 * q := by
      rw [afterChunk, List.length_drop]
      omega
    rw [combine_succ, combineChunk_eq_xorStream c hfirst, ih (advance c) hrest]
    rcases Nat.lt_or_ge din.length 64 with hshort | hlong
    · have hall : firstChunk din = din := List.take_of_length_le hshort.le
      have hnone : afterChunk din = [] := List.drop_of_length_le hshort.le
      rw [hall, hnone]
      exact List.append_nil _
    · have hfull : (firstChunk din).length = 64 * 1 := List.length_take_of_le hlong
      exact (xorStream_append c (afterChunk din) hfull).symm.trans
        (congrArg (xorStream c) (List.take_append_drop 64 din))

/-- ENCRYPT and DECRYPT of an input: the session moves by its number of chunks, the output is the input against the
keystream. -/
theorem combine_chunkCount (c : Session) (din : List Byte) :
    combine (chunkCount din.length) c din = ((advance)^[chunkCount din.length] c, xorStream c din) :=
  Prod.ext (combine_session _ c din) (combine_eq_xorStream c (le_mul_chunkCount din.length))

/-! The instructions. -/

/-- `streamCombine_of_valid` with the session and the output written out. -/
theorem streamCombine_eq_xorStream {s : State} (hv : s.VALID = 1)
    (hl : lengthAdmitted s.params.MAX_LEN s.DIN.length = true) :
    streamCombine s = .next (s.finish ((advance)^[chunkCount s.DIN.length] s.session, xorStream s.session s.DIN)) := by
  rw [streamCombine_of_valid hv hl, combine_chunkCount]

theorem exec_xorc_of_valid {s : State} {chunk : List Byte} (hv : s.VALID = 1)
    (hc : chunkLengthOk chunk.length = true) :
    exec (.xorc chunk) s = .next ((s.putBlock s.session).putDOUT (combineChunk chunk (keystreamBlock s.session))) := by
  rw [exec, execXorc, if_pos hc, withCore_of_valid hv]

theorem exec_xorc_of_bad_length {chunk : List Byte} (hc : ¬ chunkLengthOk chunk.length = true) (s : State) :
    exec (.xorc chunk) s = .refused (.chunkLength chunk.length) := by
  rw [exec, execXorc, if_neg hc]

theorem exec_xorc_of_invalid {s : State} {chunk : List Byte} (hv : s.VALID = 0)
    (hc : chunkLengthOk chunk.length = true) : exec (.xorc chunk) s = .refused .noCore := by
  rw [exec, execXorc, if_pos hc, withCore_of_invalid hv]

theorem streamCombine_of_invalid {s : State} (hv : s.VALID = 0) : streamCombine s = .refused .noCore := by
  rw [streamCombine, withCore_of_invalid hv]

theorem exec_ksb_of_invalid {s : State} (hv : s.VALID = 0) : exec .ksb s = .refused .noCore := by
  rw [exec, execKsb, withCore_of_invalid hv]

theorem chunkLengthOk_iff (n : Nat) : chunkLengthOk n = true ↔ 1 ≤ n ∧ n ≤ 64 := by
  simp [chunkLengthOk]

/-- A bound that admits a length admits every shorter one. -/
theorem lengthAdmitted_of_le {maxLen : Option Nat} {m n : Nat} (h : lengthAdmitted maxLen n = true) (hmn : m ≤ n) :
    lengthAdmitted maxLen m = true := by
  cases maxLen with
  | none => rfl
  | some bound => exact (lengthAdmitted_some bound m).mpr (hmn.trans ((lengthAdmitted_some bound n).mp h))

/-- No bound refuses the empty input. -/
theorem lengthAdmitted_zero (maxLen : Option Nat) : lengthAdmitted maxLen 0 = true := by
  cases maxLen with
  | none => rfl
  | some bound => exact (lengthAdmitted_some bound 0).mpr (Nat.zero_le bound)

/-- Full chunks need as many blocks as they have 64 bytes, and what follows is counted on its own (R87). -/
theorem chunkCount_add_of_full (q n : Nat) : chunkCount (64 * q + n) = chunkCount n + q := by
  rw [chunkCount, chunkCount]
  omega

/-! A fresh core. -/

/-- Thirty-two bytes are a key. -/
theorem exists_key_of_length {l : List Byte} (h : l.length = 32) : ∃ key : Key, l = key.toList :=
  ⟨⟨l.toArray, h⟩, rfl⟩

/-- BUILD and then ENCRYPT or DECRYPT: the keystream is that of the fresh session, from its first byte on
(spec/30_encoding.md R57). -/
theorem build_andThen_streamCombine {n : RoundCount} {s : State} {key : Key}
    (hd : n.val ∈ s.params.NUMBER_ROUND_DOMAIN) (hk : s.KEYBUF = key.toList)
    (hl : lengthAdmitted s.params.MAX_LEN s.DIN.length = true) :
    andThen (build n s) streamCombine =
      .next ((s.install (freshSession n key s.NONCE_IN)).finish
        ((advance)^[chunkCount s.DIN.length] (freshSession n key s.NONCE_IN),
          xorStream (freshSession n key s.NONCE_IN) s.DIN)) := by
  rw [build_of_key hd hk, andThen_of_next]
  exact streamCombine_eq_xorStream (s := s.install (freshSession n key s.NONCE_IN)) rfl hl

end Sys2Proof.Machine
end

section
/-! PROOFS. The statements of the family spec/43_stream_combiner.md. -/

namespace Sys2Proof.Proofs

open Sys2Proof.Machine Sys2Proof.Safety

/-- Settles O42: the chunk meets the first bytes of the keystream, which are the block KSB produces. -/
theorem xorcCombinesOneChunk : Obligations.XorcCombinesOneChunk := by
  rintro s c chunk hv rfl hpos h64
  have hout := combineChunk_eq_xorStream s.session h64
  refine ⟨_, _, _, exec_ksb_of_valid hv, rfl, exec_xorc_of_valid hv ((chunkLengthOk_iff _).mpr ⟨hpos, h64⟩), ?length,
    fun i hi hi64 => ?byte⟩
  case length => rw [hout, xorStream_length]
  case byte => rw [hout, xorStream_getElem? s.session hi, keystreamByte_of_lt s.session hi64]

/-- Settles O44: the output is the input against the keystream, and a derived session's keystream is the closed form. -/
theorem streamIsXoredWithSuccessiveBlocks : Obligations.StreamIsXoredWithSuccessiveBlocks := by
  rintro s c hv rfl hderived hadmitted
  refine ⟨xorStream s.session s.DIN, fun i hi => ?next, xorStream_length _ _, fun i hi => ?byte⟩
  case next =>
    rw [exec_of_mem_encrypt_decrypt hi, streamCombine_eq_xorStream hv hadmitted, advance_iterate_of_derived _ hderived]
    rfl
  case byte => rw [xorStream_getElem? s.session hi, keystreamByte_of_derived hderived]

/-- Settles O49: both cores have one keystream, which cancels. -/
theorem roundTripFromEqualSessions : Obligations.RoundTripFromEqualSessions := by
  rintro s u c hs rfl hu hsession hadmitted hadmitted'
  refine ⟨_, streamCombine_eq_xorStream hs hadmitted, fun hdin => ?_⟩
  rw [State.finish_DOUT] at hdin
  have hlen : u.DIN.length = s.DIN.length := by rw [hdin, xorStream_length]
  refine ⟨_, streamCombine_eq_xorStream hu (hlen ▸ hadmitted'), ?_⟩
  rw [State.finish_DOUT, hsession, hdin, xorStream_xorStream]

/-- Settles O50: the second BUILD finds the operands of the first, so both cores begin one keystream. -/
theorem roundTripFromFreshCores : Obligations.RoundTripFromFreshCores := by
  intro s r hlen hoffered hadmitted
  obtain ⟨key, hkey⟩ := exists_key_of_length hlen
  have henc := build_andThen_streamCombine (n := variantCount r) hoffered hkey hadmitted
  refine ⟨_, _, (exec_encryptFresh r s).trans henc, (exec_decryptFresh r _).trans
    (build_andThen_streamCombine (n := variantCount r) (key := key) hoffered hkey ?admitted), ?message⟩
  case admitted => simpa using hadmitted
  case message => exact xorStream_xorStream _ s.DIN

/-- Settles O51: the second operation starts where the keystream stands after the full blocks of the first. -/
theorem operationsJoinAtBlockBoundaries : Obligations.OperationsJoinAtBlockBoundaries := by
  rintro s c m1 m2 hv rfl hfull hadmitted
  obtain ⟨q, hq⟩ : ∃ q, m1.length = 64 * q := ⟨m1.length / 64, by omega⟩
  have hadmitted1 := lengthAdmitted_of_le (m := m1.length) hadmitted (by simp)
  have hadmitted2 := lengthAdmitted_of_le (m := m2.length) hadmitted (by simp)
  have hblocks : chunkCount m1.length = q := by simpa [hq] using chunkCount_add_of_full q 0
  have htotal : chunkCount (m1 ++ m2).length = chunkCount m2.length + q := by
    rw [List.length_append, hq, chunkCount_add_of_full]
  refine ⟨_, _, _, streamCombine_eq_xorStream (s := { s with DIN := m1 }) hv hadmitted1,
    streamCombine_eq_xorStream hv hadmitted2, streamCombine_eq_xorStream (s := { s with DIN := m1 ++ m2 }) hv hadmitted,
    ?bytes, rfl, ?session⟩
  case bytes => simp only [State.finish_DOUT, State.finish_session, hblocks, xorStream_append _ m2 hq]
  case session => simp only [State.finish_session, hblocks, htotal, Function.iterate_add_apply]

/-- Settles O53: the fresh session is a function of the operands. -/
theorem freshEncryptionIsDeterminedByItsOperands : Obligations.FreshEncryptionIsDeterminedByItsOperands := by
  intro s1 s2 r hkeybuf hnonce hdin hlen hall
  obtain ⟨key, hkey⟩ := exists_key_of_length hlen
  obtain ⟨hoffered1, hadmitted1⟩ := hall s1 (by simp)
  obtain ⟨hoffered2, hadmitted2⟩ := hall s2 (by simp)
  have hfirst := build_andThen_streamCombine (n := variantCount r) hoffered1 hkey hadmitted1
  have hsecond := build_andThen_streamCombine (n := variantCount r) hoffered2 (hkeybuf.symm.trans hkey) hadmitted2
  refine ⟨_, _, (exec_encryptFresh r s1).trans hfirst, (exec_encryptFresh r s2).trans hsecond, ?output, rfl, ?session⟩
  case output => rw [State.finish_DOUT, State.finish_DOUT, hnonce, hdin]
  case session => rw [State.finish_session, State.finish_session, hnonce, hdin]

/-- Settles O43: the length test fails before a core is asked for. -/
theorem xorcRefusesOtherLengths : Obligations.XorcRefusesOtherLengths := by
  intro s chunk h
  refine exec_xorc_of_bad_length (fun hok => ?_) s
  rw [chunkLengthOk_iff] at hok
  omega

/-- Settles O45: no byte, no chunk, no block. -/
theorem emptyInputAsksForNoBlock : Obligations.EmptyInputAsksForNoBlock := by
  rintro s c hv rfl hdin i hi
  have hadmitted : lengthAdmitted s.params.MAX_LEN s.DIN.length = true := by
    rw [hdin]
    exact lengthAdmitted_zero s.params.MAX_LEN
  have hnothing : combine (chunkCount s.DIN.length) s.session s.DIN = (s.session, []) := by
    rw [hdin, List.length_nil, chunkCount_zero, combine_zero]
  rw [exec_of_mem_encrypt_decrypt hi, streamCombine_of_valid hv hadmitted, hnothing]
  exact ⟨_, rfl, hv, rfl, rfl⟩

/-- Settles O46: both are the one shared operation. -/
theorem decryptIsEncrypt : Obligations.DecryptIsEncrypt := by
  intro s
  rw [exec_of_mem_encrypt_decrypt (i := .decrypt) (by simp), exec_of_mem_encrypt_decrypt (i := .encrypt) (by simp)]

/-- Settles O47: each of them asks for a core, XORC after its length test. -/
theorem noCoreNoStream : Obligations.NoCoreNoStream := by
  refine fun s hv => ⟨fun i hi => ?commands, fun chunk => exec_xorc_of_invalid hv⟩
  case commands =>
    simp only [List.mem_cons, List.not_mem_nil, or_false] at hi
    rcases hi with rfl | rfl | rfl
    · exact streamCombine_of_invalid hv
    · exact streamCombine_of_invalid hv
    · exact exec_ksb_of_invalid hv

end Sys2Proof.Proofs
end

section
/-! PROOFS. The two ends of BUILD of a round count that is offered (spec/44_builder.md R93), and the commands that select
it. -/

namespace Sys2Proof.Machine

/-- BUILD of a count that is offered, with a key of another length, raises the one error. -/
theorem build_of_bad_length {n : RoundCount} {s : State} (hd : n.val ∈ s.params.NUMBER_ROUND_DOMAIN)
    (hlen : s.KEYBUF.length ≠ 32) : build n s = .next s.raiseInvalidKeySize := by
  rw [build, if_pos (by simpa using hd), (keyOperand_eq_none s.KEYBUF).mpr hlen]

/-- Each BUILD command is the shared operation at its variant's round count (R92). -/
theorem exec_of_mem_builds {p : Instr × Variant}
    (hp : p ∈ [(Instr.build8, Variant.r8), (.build12, .r12), (.build20, .r20)]) (s : State) :
    exec p.1 s = build (variantCount p.2) s := by
  simp only [List.mem_cons, List.not_mem_nil, or_false] at hp
  rcases hp with rfl | rfl | rfl
  · exact exec_buildInstr .r8 s
  · exact exec_buildInstr .r12 s
  · exact exec_buildInstr .r20 s

end Sys2Proof.Machine
end

section
/-! PROOFS. The statements of the family spec/44_builder.md. -/

namespace Sys2Proof.Proofs

open Sys2Proof.Machine

/-- Settles O21: a fresh session is installed, whose registers are the ones R95 names. -/
theorem buildConstructsTheCore : Obligations.BuildConstructsTheCore :=
  fun s _ hkey _ hp hoffered => (exec_of_mem_builds hp s).trans (build_of_key hoffered hkey)

/-- Settles O22: the one error is raised, which records the result and ERR. -/
theorem buildRejectsOtherKeyLengths : Obligations.BuildRejectsOtherKeyLengths :=
  fun s hlen _ hp hoffered => (exec_of_mem_builds hp s).trans (build_of_bad_length hoffered hlen)

end Sys2Proof.Proofs
end

section
/-! PROOFS. What a BUILD leaves in the status and the result (spec/60_exceptions.md R100, R101), and the builds that
have a command word (spec/30_encoding.md R47). -/

namespace Sys2Proof.Machine

open Sys2Proof.Safety

/-- A BUILD, alone or first in a pseudo-operation, records the one error for a key of another length, and success
otherwise. -/
theorem BuildEffect.status {s t : State} (h : BuildEffect s t) :
    (s.KEYBUF.length ≠ 32 ∧ t.ERR = 1 ∧ t.RESULT = some .invalidKeySize) ∨
      (s.KEYBUF.length = 32 ∧ t.ERR = 0 ∧ t.RESULT = some .ok) := by
  cases h with
  | failed _ _ hk _ he hr _ _ => exact .inl ⟨hk, he, hr⟩
  | built _ _ _ _ _ hk _ he hr _ => exact .inr ⟨length_of_keyOperand_eq_some hk, he, hr⟩

/-- The instructions that build and have a command word are the three BUILDs. -/
theorem eq_buildInstr_of_command {i : Instr} (hi : isBuild i = true) (hf : i.format = .cmd8) :
    ∃ r, i = buildInstr r := by
  cases i with
  | build8 => exact ⟨.r8, rfl⟩
  | build12 => exact ⟨.r12, rfl⟩
  | build20 => exact ⟨.r20, rfl⟩
  | encryptFresh _ | decryptFresh _ => cases hf
  | encrypt | decrypt | qr _ _ _ _ | sched0 | sched1 | sched2 | sched3 | sched4 | sched5 | sched6 | sched7
  | init _ _ _ | cround | dground | dround | rounds _ | ksb | xorc _ => cases hi

/-- BUILD with a key of another length, when it answers a next state, has raised the one error. -/
theorem build_next_of_bad_length {n : RoundCount} {s t : State} (hlen : s.KEYBUF.length ≠ 32)
    (h : build n s = .next t) : t = s.raiseInvalidKeySize := by
  obtain ⟨-, ⟨-, ht⟩ | ⟨key, hk, -⟩⟩ := build_next h
  · exact ht
  · exact absurd (length_of_keyOperand_eq_some hk) hlen

end Sys2Proof.Machine
end

section
/-! PROOFS. The statements of the family spec/60_exceptions.md. -/

namespace Sys2Proof.Proofs

open Sys2Proof.Machine Sys2Proof.Safety

/-- Settles O23: an instruction that builds nothing leaves the status, a BUILD records one of its two ends, and a BUILD
command that fails writes nothing but the status. -/
theorem invalidKeySizeOnlyFromBuild : Obligations.InvalidKeySizeOnlyFromBuild := by
  refine fun i s t h => ⟨fun hi => ?others, fun hi => ?builds, fun hi hf hlen => ?failed⟩
  case others =>
    obtain ⟨q, he⟩ := exec_effect hi h
    exact ⟨he.err, he.result⟩
  case builds =>
    rcases (exec_buildEffect hi h).status with ⟨hlen, he, hr⟩ | ⟨hlen, he, hr⟩ <;> simp [hlen, he, hr]
  case failed =>
    obtain ⟨r, rfl⟩ := eq_buildInstr_of_command hi hf
    rw [exec_buildInstr] at h
    rw [build_next_of_bad_length hlen h, State.raiseInvalidKeySize_session]

end Sys2Proof.Proofs
end

section
/-! PROOFS. The event RESET as a step, and what the machine without a core refuses (spec/70_reset_and_hazards.md R115). -/

namespace Sys2Proof.Machine

/-- RESET is complete in the step that finds it: the core is reset, and the host's remaining moves stay. -/
theorem step_of_reset {s : State} {rest : List Request} (hseq : s.seq = []) (hhost : s.host = .reset :: rest) :
    step s = .next { s with host := rest }.resetCore :=
  step_of_done (fetch_of_host hseq hhost)

/-- Without a core neither ENCRYPT nor DECRYPT is admitted. -/
theorem exec_of_mem_encrypt_decrypt_of_invalid {i : Instr} {s : State} (hi : i ∈ [Instr.encrypt, .decrypt])
    (hv : s.VALID = 0) : exec i s = .refused .noCore := by
  rw [exec_of_mem_encrypt_decrypt hi, streamCombine_of_invalid hv]

end Sys2Proof.Machine
end

section
/-! PROOFS. The statement of the family spec/70_reset_and_hazards.md. -/

namespace Sys2Proof.Proofs

open Sys2Proof.Machine

/-- Settles O18: the step is the reset of the core, and its `VALID = 0` refuses both stream commands. -/
theorem resetLeavesNoCore : Obligations.ResetLeavesNoCore := by
  intro s rest hseq hhost
  have hrefused : ∀ i ∈ [Instr.encrypt, .decrypt], exec i { s with host := rest }.resetCore = .refused .noCore :=
    fun i hi => exec_of_mem_encrypt_decrypt_of_invalid hi (State.resetCore_VALID _)
  exact ⟨_, step_of_reset hseq hhost, rfl, rfl, rfl, rfl, rfl, rfl, rfl, rfl, hrefused⟩

end Sys2Proof.Proofs
end

section
/-! PROOFS. A step on which nothing is fetched (assumption 2). -/

namespace Sys2Proof.Machine

/-- A step that fetches nothing leaves the whole state. -/
theorem step_of_idle {s : State} (h : fetch s = .idle) : step s = .next s := by
  simp only [step, h]

end Sys2Proof.Machine
end

section
/-! PROOFS. The statement of the family 'other'. -/

namespace Sys2Proof.Proofs

open Sys2Proof.Machine

/-- Settles O17: with an empty sequencer and no host move left, the fetch is idle. -/
theorem stepWithNothingPresentedIsIdle : Obligations.StepWithNothingPresentedIsIdle :=
  fun _ hseq hhost => step_of_idle (fetch_of_nothing hseq hhost)

end Sys2Proof.Proofs
end
